-- ==== Sys2Proof/Word.lean ====
section
/-! DEFINITION. The word types of ADCSEQ: the 40-bit operation word (30_encoding.md R45), the 12-bit
reading, which is also a lane and a slot (00_scope.md R5), and the 4-bit opcode field (R45). -/

namespace Sys2Proof

/-- One operation word, `OPW` = 40 bits (R45). -/
abbrev OpWord := BitVec 40

/-- One reading: an unsigned 12-bit value, 0 to 4095 (R5, R11, R46). -/
abbrev Reading := BitVec 12

/-- The opcode field, bits 39:36 of an operation word (R45). -/
abbrev Opcode := BitVec 4

end Sys2Proof
end

