-- ==== Sys2Proof/Config.lean ====
section
/-! DEFINITION. What an implementation of ADCSEQ fixes: the parameters of 00_scope.md R5 and the block
copy's descriptor of 20_memory.md R43. What the spec leaves open is an opaque constant, so that no proof
can see its value (assumption log, entry 10). -/

namespace Sys2Proof

/-- The completion strategy of a build (R5, R8, R17): `A` is the interrupt-driven channel sequencer,
`B` the block transfer. -/
inductive Strategy where
  | A
  | B
deriving DecidableEq, Repr

/-- `N_CH`: channels, slots, sequencer states, elements of one block transfer (R5). -/
def Config.nCh : Nat := 3

/-- `RES`: bits of precision of one reading (R5). -/
def Config.res : Nat := 12

/-- `SLOT_W`: width of one buffer slot (R5). -/
def Config.slotW : Nat := 12

/-- `OPW`: width of one operation word (R5). -/
def Config.opW : Nat := 40

/-- By how much the native word is wider than a reading: left open by R5 (`NATIVE_W` is OPEN). -/
opaque Config.nativeExtra : Nat

/-- `NATIVE_W`: any integer not less than 12 (R5; 93_implementation_defined.md U9). -/
def Config.nativeW : Nat := Config.res + Config.nativeExtra

/-- The direction of a block copy (R43 names one). -/
inductive CopyDirection where
  | peripheralToMemory
deriving DecidableEq, Repr

/-- The mode of a block copy (R43 names one: "used up" after the last element). -/
inductive CopyMode where
  | oneShot
deriving DecidableEq, Repr

/-- The block copy's descriptor (R43). It is constant; the part of it that varies, armed or used up, is
`CYC` (10_state.md R23). -/
structure CopyDescriptor where
  sourceAddress : Nat
  sourceIncrements : Bool
  destinationAddress : Nat
  destinationIncrements : Bool
  elementWidth : Nat
  elementCount : Nat
  direction : CopyDirection
  mode : CopyMode
  priority : Nat
deriving DecidableEq, Repr

/-- The fixed source address, not given (R43; 91_not_in_source.md N6). -/
opaque Config.copySource : Nat

/-- The buffer's base address, not given (R43; N6). -/
opaque Config.copyDestination : Nat

/-- The copy's priority, not given (R43; N6). -/
opaque Config.copyPriority : Nat

/-- The descriptor that `ARM` configures (R43, R75). -/
def Config.copyDescriptor : CopyDescriptor where
  sourceAddress := Config.copySource
  sourceIncrements := false
  destinationAddress := Config.copyDestination
  destinationIncrements := true
  elementWidth := Config.nativeW
  elementCount := Config.nCh
  direction := .peripheralToMemory
  mode := .oneShot
  priority := Config.copyPriority

end Sys2Proof
end

