-- ==== Sys2Proof/Syntax.lean ====
section
/-! DEFINITION. The operations of ADCSEQ, one constructor for each row of spec/opcode_table.json
(30_encoding.md R47). An operation carries the lanes it uses and no others (R48). -/

namespace Sys2Proof

/-- The seven operations (R47). -/
inductive Instr where
  /-- `NOP`: no operation (R87). -/
  | nop
  /-- `READY`: the converter reports that it is ready (R85). -/
  | ready
  /-- `START`: trigger a conversion cycle (R60). -/
  | start
  /-- `EOC v`: one conversion is complete, its reading is `w0` (R70). -/
  | eoc (w0 : Reading)
  /-- `ARM`: configure the one-shot copy for the next cycle (R75). -/
  | arm
  /-- `TC a, b, c`: the block copy is complete, its readings are the three lanes (R78). -/
  | tc (w0 w1 w2 : Reading)
  /-- `CLR`: clear the completion signal (R63). -/
  | clr
deriving DecidableEq, Repr

end Sys2Proof
end

