-- ==== Sys2Proof/Decode.lean ====
section
/-! DEFINITION. The operation word: its fields, the decoder and the encoder (30_encoding.md R45 to R50).
Decoding is a function of the word alone (R46). It is total: a reserved opcode is rejected by name (R50;
assumption log, entry 6). -/

namespace Sys2Proof

/-- `op = word[39:36]` (R46). -/
def opField (w : OpWord) : Opcode := w.extractLsb' 36 4

/-- `w2 = word[35:24]` (R46). -/
def lane2 (w : OpWord) : Reading := w.extractLsb' 24 12

/-- `w1 = word[23:12]` (R46). -/
def lane1 (w : OpWord) : Reading := w.extractLsb' 12 12

/-- `w0 = word[11:0]` (R46). -/
def lane0 (w : OpWord) : Reading := w.extractLsb' 0 12

/-- A word from its four fields, most significant first: the pattern string of R45. -/
def packWord (op : Opcode) (w2 w1 w0 : Reading) : OpWord := op ++ w2 ++ w1 ++ w0

/-- Why the decoder rejects a word. -/
inductive DecodeReject where
  /-- `op` is 0x7 to 0xF (R50). -/
  | reservedOpcode (op : Opcode)
deriving DecidableEq, Repr

/-- Decoding a word (R46, R47). -/
def decode (w : OpWord) : Except DecodeReject Instr :=
  match (opField w).toNat with
  | 0 => .ok .nop
  | 1 => .ok .ready
  | 2 => .ok .start
  | 3 => .ok (.eoc (lane0 w))
  | 4 => .ok .arm
  | 5 => .ok (.tc (lane0 w) (lane1 w) (lane2 w))
  | 6 => .ok .clr
  | _ => .error (.reservedOpcode (opField w))

/-- The opcode of an operation (R47). -/
def opcodeOf : Instr → Opcode
  | .nop => 0x0#4
  | .ready => 0x1#4
  | .start => 0x2#4
  | .eoc _ => 0x3#4
  | .arm => 0x4#4
  | .tc _ _ _ => 0x5#4
  | .clr => 0x6#4

/-- The word of an operation; lanes it does not use are 0 (R48, R54). -/
def encode (i : Instr) : OpWord :=
  match i with
  | .nop => packWord (opcodeOf i) 0#12 0#12 0#12
  | .ready => packWord (opcodeOf i) 0#12 0#12 0#12
  | .start => packWord (opcodeOf i) 0#12 0#12 0#12
  | .eoc w0 => packWord (opcodeOf i) 0#12 0#12 w0
  | .arm => packWord (opcodeOf i) 0#12 0#12 0#12
  | .tc w0 w1 w2 => packWord (opcodeOf i) w2 w1 w0
  | .clr => packWord (opcodeOf i) 0#12 0#12 0#12

/-- One row of the opcode table (R47). -/
structure OpcodeRow where
  mnemonic : String
  pattern : OpWord
  mask : OpWord
deriving DecidableEq, Repr

/-- The mask of every row covers bits 39:36 only (R48). -/
def opcodeMask : OpWord := 0xF000000000#40

/-- The opcode table, row for row (R47). -/
def opcodeTable : List OpcodeRow :=
  [⟨"NOP", 0x0000000000#40, opcodeMask⟩, ⟨"READY", 0x1000000000#40, opcodeMask⟩,
   ⟨"START", 0x2000000000#40, opcodeMask⟩, ⟨"EOC", 0x3000000000#40, opcodeMask⟩,
   ⟨"ARM", 0x4000000000#40, opcodeMask⟩, ⟨"TC", 0x5000000000#40, opcodeMask⟩,
   ⟨"CLR", 0x6000000000#40, opcodeMask⟩]

/-- "A word `w` selects the row whose `w and mask = match`" (R47). -/
def OpcodeRow.selects (r : OpcodeRow) (w : OpWord) : Bool := decide (w &&& r.mask = r.pattern)

/-- The mnemonic of an operation (R47). -/
def Instr.mnemonic : Instr → String
  | .nop => "NOP"
  | .ready => "READY"
  | .start => "START"
  | .eoc _ => "EOC"
  | .arm => "ARM"
  | .tc _ _ _ => "TC"
  | .clr => "CLR"

/-- The operation the decoder reads from the `nbits` low bits of `w`, every bit above them 0. There is one
format and one length (R45): a number that does not fit 40 bits is no word. -/
def decodeTableWord (nbits w : Nat) : Option Instr :=
  if w % 2 ^ nbits < 2 ^ 40 then
    match decode (BitVec.ofNat 40 (w % 2 ^ nbits)) with
    | .ok i => some i
    | .error _ => none
  else none

end Sys2Proof
end

