-- ==== Sys2Proof/Machine/State.lean ====
section
/-! DEFINITION. The state of ADCSEQ (10_state.md R10 to R24), the strap, the pulse outputs of the last step
and the words waiting at the operation port; the state after reset (R21, R110). -/

namespace Sys2Proof.Machine

/-- A channel, a slot index, a state of the sequencer: 0, 1 or 2 (R13, R30). The code 3 does not exist. -/
inductive Channel where
  | ch0
  | ch1
  | ch2
deriving DecidableEq, Repr

/-- The cycle state of the bulk-transfer completion arbiter (R15). -/
inductive CycleState where
  | idle
  | armed
  | converting
  | complete
deriving DecidableEq, Repr

/-- The sample buffer `SB[0..2]`: three 12-bit registers (R11). -/
structure SampleBuffer where
  slot0 : Reading
  slot1 : Reading
  slot2 : Reading
deriving DecidableEq, Repr

/-- The pulse outputs of one step (R19). `we[i]` is bit `i` of `we`. -/
structure Pulses where
  startPulse : Bool
  doneRise : Bool
  we : BitVec 3
deriving DecidableEq, Repr

/-- No pulse (R49's defaults). -/
def Pulses.quiet : Pulses := { startPulse := false, doneRise := false, we := 0b000#3 }

/-- The state: the seven registers of R10 (`sb`, `ci`, `cs`, `cyc`, `go`), the strap `strategy` (R17;
DESIGN CHOICE, log 1), the pulse outputs of the last step (R19; DESIGN CHOICE, log 5) and the words that
the agents outside present next, first word first (R45; DESIGN CHOICE, log 3). -/
structure State where
  sb : SampleBuffer
  ci : Channel
  cs : Bool
  cyc : CycleState
  go : Bool
  strategy : Strategy
  pulses : Pulses
  port : List OpWord
deriving DecidableEq, Repr

/-- The faults of the block: none (60_exceptions.md R94, "A model therefore has no fault outcome for any
operation of this block"). No constructor, so no step can answer a fault. Safe: it is the spec's own rule. -/
inductive Fault : Type
deriving DecidableEq, Repr

/-- The refusals of the model. -/
inductive Refusal where
  /-- Raised by `exec`'s arm for an operation that has no meaning yet; no arm raises it now. Safe: a claim
  about such a step becomes unprovable. -/
  | notModelled (mnemonic : String)
deriving DecidableEq, Repr

/-- What one step answers. -/
abbrev Result := Host.Outcome State Fault Refusal

/-- The reset state of the build with strap `σ` (R21, R110). -/
def State.resetWith (σ : Strategy) : State where
  sb := { slot0 := 0#12, slot1 := 0#12, slot2 := 0#12 }
  ci := .ch0
  cs := false
  cyc := .idle
  go := false
  strategy := σ
  pulses := Pulses.quiet
  port := []

/-- The machine right after reset (R21, R110). The strap is A: DESIGN CHOICE (log 2). -/
def State.reset : State := State.resetWith .A

end Sys2Proof.Machine
end

