-- ==== Sys2Proof/Machine/Ops.lean ====
section
/-! DEFINITION. The named operations over the registers of ADCSEQ that the meanings share. The block takes no
exception and returns from none (60_exceptions.md R92 to R94): an event's whole handler is the step that
carries it, so there is no operation for either. -/

namespace Sys2Proof.Machine

/-! ## Channels and slots -/

/-- The successor modulo 3 as a table (R71, R88). -/
def Channel.succ : Channel → Channel
  | .ch0 => .ch1
  | .ch1 => .ch2
  | .ch2 => .ch0

/-- The channel's number. -/
def Channel.index : Channel → Nat
  | .ch0 => 0
  | .ch1 => 1
  | .ch2 => 2

/-- The write enable of one slot, bit `i` of `we` (R19, R31). -/
def Channel.enable : Channel → BitVec 3
  | .ch0 => 0b001#3
  | .ch1 => 0b010#3
  | .ch2 => 0b100#3

/-- `SB[i]` (R7). -/
def SampleBuffer.read (b : SampleBuffer) : Channel → Reading
  | .ch0 => b.slot0
  | .ch1 => b.slot1
  | .ch2 => b.slot2

/-- `SB[i] <- v` (R7, R33). -/
def SampleBuffer.write (b : SampleBuffer) (i : Channel) (v : Reading) : SampleBuffer :=
  match i with
  | .ch0 => { b with slot0 := v }
  | .ch1 => { b with slot1 := v }
  | .ch2 => { b with slot2 := v }

/-- The three slots in channel order. -/
def SampleBuffer.toList (b : SampleBuffer) : List Reading := [b.slot0, b.slot1, b.slot2]

/-- The slot `i` of a state, the only memory read there is (R7, R30). -/
def State.slot (s : State) (i : Channel) : Reading := s.sb.read i

/-! ## The effects of a step -/

/-- A step begins with every pulse 0 (R49's defaults). -/
def State.quiet (s : State) : State := { s with pulses := Pulses.quiet }

/-- Raise `start_pulse` (R60). -/
def State.raiseStart (s : State) : State := { s with pulses := { s.pulses with startPulse := true } }

/-- Write one slot and raise its write enable (R31, R33). -/
def State.store (i : Channel) (v : Reading) (s : State) : State :=
  { s with sb := s.sb.write i v, pulses := { s.pulses with we := s.pulses.we ||| i.enable } }

/-- Write the whole block, lane k to slot k (R43, R78). -/
def State.storeBlock (a b c : Reading) (s : State) : State :=
  ((s.store .ch0 a).store .ch1 b).store .ch2 c

/-- `set`: `CS` becomes 1, and `done_rise` is raised when it was 0 (R26). -/
def State.setCompletion (s : State) : State :=
  { s with cs := true, pulses := { s.pulses with doneRise := !s.cs } }

/-- `clr`: `CS` becomes 0 (R26, R63). -/
def State.clearCompletion (s : State) : State := { s with cs := false }

/-- `CI` advances by one, modulo 3 (R70, R71). -/
def State.advanceChannel (s : State) : State := { s with ci := s.ci.succ }

/-- `CYC <- v` (R15). -/
def State.setCycle (v : CycleState) (s : State) : State := { s with cyc := v }

/-- `GO <- 1` (R16, R85). -/
def State.openGate (s : State) : State := { s with go := true }

/-- What the block does with a word whose opcode is reserved: "no state change and no pulse" (R50, R49). -/
def State.ignoreReserved (s : State) : State := s.quiet

/-! ## Reset and the operation port -/

/-- Asserting `rst` (R110): a new run begins in the reset state of the same strap. -/
def State.assertReset (s : State) : State := State.resetWith s.strategy

/-- The word that nobody's request stands for: `NOP` (R45, R87). -/
def idleWord : OpWord := 0x0000000000#40

/-- The word on the port in this step: the first that waits, or `NOP` when no agent has anything to do
(R45, "An agent that has nothing to do presents `NOP`"; DEDUCED, log 4). -/
def State.presented (s : State) : OpWord := s.port.headD idleWord

/-- The port after this step's word is taken (R45). -/
def State.consume (s : State) : State := { s with port := s.port.tail }

/-- An agent presents `w` as the next word. -/
def State.present (w : OpWord) (s : State) : State := { s with port := w :: s.port }

/-- The next state a step answers, if it answers one. -/
def nextOf : Result → Option State
  | .next t => some t
  | .fault _ => none
  | .refused _ => none

end Sys2Proof.Machine
end

