-- ==== Sys2Proof/Machine/Operands.lean ====
section
/-! DEFINITION. The operand forms: the one reading of `EOC`, addressed through `CI` with post-increment
(43_gate_and_idle_ops.md R89), the three lanes of `TC`, lane k to slot k (42_transfer_ops.md R78), and the
native word a reading is seen as (10_state.md R11). -/

namespace Sys2Proof.Machine

/-- The slot `EOC` stores to: the one `CI` names (R30, R70). -/
def State.eocTarget (s : State) : Channel := s.ci

/-- The three lanes of an operation, those it does not use 0 (R46, R48). -/
structure Lanes where
  w0 : Reading
  w1 : Reading
  w2 : Reading
deriving DecidableEq, Repr

/-- The lane of a channel: lane k is channel k (R36, R43). -/
def Lanes.lane (l : Lanes) : Channel → Reading
  | .ch0 => l.w0
  | .ch1 => l.w1
  | .ch2 => l.w2

/-- The lanes an operation uses (R48). -/
def lanesOf : Instr → Lanes
  | .nop => ⟨0#12, 0#12, 0#12⟩
  | .ready => ⟨0#12, 0#12, 0#12⟩
  | .start => ⟨0#12, 0#12, 0#12⟩
  | .eoc w0 => ⟨w0, 0#12, 0#12⟩
  | .arm => ⟨0#12, 0#12, 0#12⟩
  | .tc w0 w1 w2 => ⟨w0, w1, w2⟩
  | .clr => ⟨0#12, 0#12, 0#12⟩

/-- A reading as a native word, `zext_NATIVE_W` (R11, R46). -/
def nativeReading (v : Reading) : BitVec Config.nativeW := v.setWidth Config.nativeW

end Sys2Proof.Machine
end

