-- ==== Sys2Proof/Machine/Controller.lean ====
section
/-! DEFINITION. The host's operations `START` and `CLR` (40_controller_ops.md R60, R61, R63). -/

namespace Sys2Proof.Machine

/-- `START` (R60): while `GO` is 0 it is dropped without trace; else `start_pulse`, and in Strategy B from
`Armed` the arbiter moves to `Converting`. -/
def execStart (s : State) : Result :=
  .next
    (if s.go = true then
      if s.strategy = .B ∧ s.cyc = .armed then (s.quiet.raiseStart).setCycle .converting
      else s.quiet.raiseStart
    else s.quiet)

/-- `CLR` (R63): `CS` becomes 0 and nothing else is written. -/
def execClr (s : State) : Result := .next s.quiet.clearCompletion

end Sys2Proof.Machine
end

