-- ==== Sys2Proof/Machine/Gate.lean ====
section
/-! DEFINITION. The readiness gate's operation `READY` and the idle operation `NOP`
(43_gate_and_idle_ops.md R85 to R87). -/

namespace Sys2Proof.Machine

/-- `READY` (R85): `GO` becomes 1 and nothing else is written; no pulse. -/
def execReady (s : State) : Result := .next s.quiet.openGate

/-- `NOP` (R87): no state change, every pulse 0. -/
def execNop (s : State) : Result := .next s.quiet

end Sys2Proof.Machine
end

