-- ==== Sys2Proof/Machine/Sequencer.lean ====
section
/-! DEFINITION. The channel sequencer's operation `EOC` (41_sequencer_ops.md R70 to R72). -/

namespace Sys2Proof.Machine

/-- `EOC v` (R70), with no guard (R72): in Strategy A the reading goes to the slot `CI` names, `CI` advances
modulo 3, and the event that finds `CI = 2` sets `CS`. Masked in Strategy B (R52). -/
def execEoc (w0 : Reading) (s : State) : Result :=
  .next
    (if s.strategy = .A then
      if s.ci = .ch2 then ((s.quiet.store s.eocTarget w0).advanceChannel).setCompletion
      else (s.quiet.store s.eocTarget w0).advanceChannel
    else s.quiet)

end Sys2Proof.Machine
end

