-- ==== Sys2Proof/Machine/Transfer.lean ====
section
/-! DEFINITION. The transfer engine's operations `ARM` and `TC` (42_transfer_ops.md R75 to R80). -/

namespace Sys2Proof.Machine

/-- `ARM` (R75): in Strategy B `CYC` becomes `Armed` from any value, whatever `GO` is. Masked in Strategy A
(R52). -/
def execArm (s : State) : Result :=
  .next (if s.strategy = .B then s.quiet.setCycle .armed else s.quiet)

/-- `TC a, b, c` (R78): in Strategy B the arbiter accepts it in `Converting` only (R79); then the three slots,
`CYC` and `CS` change in the one step. Otherwise nothing at all. Masked in Strategy A (R52). -/
def execTc (w0 w1 w2 : Reading) (s : State) : Result :=
  .next
    (if s.strategy = .B ∧ s.cyc = .converting then
      ((s.quiet.storeBlock w0 w1 w2).setCycle .complete).setCompletion
    else s.quiet)

end Sys2Proof.Machine
end

