-- ==== Sys2Proof/Machine/Dispatch.lean ====
section
/-! DEFINITION. One operation on a state: each arm calls the operation's meaning (30_encoding.md R49). -/

namespace Sys2Proof.Machine

def exec (i : Instr) (s : State) : Host.Outcome State Fault Refusal :=
  match i with
  | .nop => Sys2Proof.Machine.execNop s
  | .ready => Sys2Proof.Machine.execReady s
  | .start => Sys2Proof.Machine.execStart s
  | .eoc w0 => Sys2Proof.Machine.execEoc w0 s
  | .arm => Sys2Proof.Machine.execArm s
  | .tc w0 w1 w2 => Sys2Proof.Machine.execTc w0 w1 w2 s
  | .clr => Sys2Proof.Machine.execClr s

end Sys2Proof.Machine
end

