-- ==== Sys2Proof/Machine/Step.lean ====
section
/-! DEFINITION. One step: the word on the operation port is taken, decoded and run (00_scope.md R6,
30_encoding.md R45, R49). -/

namespace Sys2Proof.Machine

/-- One step of the block (R6, R49). A word the decoder rejects has the effect the block gives it: none
(R50; DESIGN CHOICE, log 6). -/
def step (s : State) : Host.Outcome State Fault Refusal :=
  match decode s.presented with
  | .ok i => exec i s.consume
  | .error _ => .next s.consume.ignoreReserved

/-- `s` with the word of the `nbits` low bits of `w` presented next (log 3). -/
def State.withFetchWord (s : State) (nbits w : Nat) : State :=
  s.present (BitVec.ofNat 40 (w % 2 ^ nbits))

end Sys2Proof.Machine
end

