-- ==== Sys2Proof/Machine/Flags.lean ====
section
/-! DEFINITION. The codes of the registers, the level outputs and the status word (10_state.md R15, R17, R18,
R20), and the next-state equations of the completion latch and its edge detector (R26). -/

namespace Sys2Proof.Machine

/-- The code of `CYC` (R15). -/
def CycleState.code : CycleState → BitVec 2
  | .idle => 0b00#2
  | .armed => 0b01#2
  | .converting => 0b10#2
  | .complete => 0b11#2

/-- The code of `CI` (R13). -/
def Channel.code : Channel → BitVec 2
  | .ch0 => 0b00#2
  | .ch1 => 0b01#2
  | .ch2 => 0b10#2

/-- The strap's bit: 0 for A, 1 for B (R17). -/
def strapBit : Strategy → BitVec 1
  | .A => 0b0#1
  | .B => 0b1#1

/-- The level outputs (R18). -/
structure Levels where
  done : Bool
  gate : Bool
  buf0 : Reading
  buf1 : Reading
  buf2 : Reading
  chidx : BitVec 2
  cyc : BitVec 2
deriving DecidableEq, Repr

/-- The level outputs of a state; sampling them has no effect (R18, R35). -/
def State.levels (s : State) : Levels where
  done := s.cs
  gate := s.go
  buf0 := s.slot .ch0
  buf1 := s.slot .ch1
  buf2 := s.slot .ch2
  chidx := s.ci.code
  cyc := s.cyc.code

/-- The status word: STRAT, CYC, CHIDX, GATE, DONE from bit 6 down (R20). -/
def State.status (s : State) : BitVec 7 :=
  strapBit s.strategy ++ s.cyc.code ++ s.ci.code ++ BitVec.ofBool s.go ++ BitVec.ofBool s.cs

/-- `set` of R26, from the state before the step. -/
def setCond (i : Instr) (s : State) : Bool :=
  match i with
  | .nop => false
  | .ready => false
  | .start => false
  | .eoc _ => decide (s.strategy = .A) && decide (s.ci = .ch2)
  | .arm => false
  | .tc _ _ _ => decide (s.strategy = .B) && decide (s.cyc = .converting)
  | .clr => false

/-- `clr` of R26. -/
def clrCond (i : Instr) : Bool :=
  match i with
  | .nop => false
  | .ready => false
  | .start => false
  | .eoc _ => false
  | .arm => false
  | .tc _ _ _ => false
  | .clr => true

/-- `CS'` of R26. -/
def completionNext (i : Instr) (s : State) : Bool :=
  if setCond i s then true else if clrCond i then false else s.cs

/-- `done_rise` of R26. -/
def doneRiseNext (i : Instr) (s : State) : Bool := setCond i s && !s.cs

end Sys2Proof.Machine
end

