-- ==== Sys2Proof/Machine/Run.lean ====
section
/-! DEFINITION. Sequences of operations, as the port sees them: the steps of all agents already interleaved
(00_scope.md R6; 95_test_vectors.md part 3). -/

namespace Sys2Proof.Machine

/-- The state after one operation; a step that answered no next state would leave the state as it was
(that no step does is a statement). -/
def after (i : Instr) (s : State) : State := (nextOf (exec i s)).getD s

/-- The state after a sequence of operations. -/
def runOps : List Instr → State → State
  | [], s => s
  | i :: is, s => runOps is (after i s)

/-- The pulses of each step of a sequence, in order (R19). -/
def pulseTrace : List Instr → State → List Pulses
  | [], _ => []
  | i :: is, s => (after i s).pulses :: pulseTrace is (after i s)

/-- How many steps of a sequence have `set = 1` (R26, R81). -/
def setCount : List Instr → State → Nat
  | [], _ => 0
  | i :: is, s => (if setCond i s then 1 else 0) + setCount is (after i s)

/-- `consumeAndReset` as operations: `CLR`, and in Strategy B `ARM` after it (R56). -/
def consumeAndResetOps : Strategy → List Instr
  | .A => [.clr]
  | .B => [.clr, .arm]

end Sys2Proof.Machine
end

