-- ==== Sys2Proof/Machine/Assembler.lean ====
section
/-! DEFINITION. The assembler's notation (30_encoding.md R54), the pseudo-operations (R55) and
`consumeAndReset` (R56): a source line, its text, its range check, and the words it emits. A text is a list
of characters, so that Lean's kernel can read one. What R54 does not fix is in the assumption log, entry 15. -/

namespace Sys2Proof.Machine

/-- A line of an assembler text (R54) or a pseudo-operation (R55). Operands are numbers as written. -/
inductive AsmLine where
  /-- A line with nothing on it, or nothing but a comment: no word, wherever it stands (DESIGN CHOICE, log 15). -/
  | blank
  /-- The heading `STRATEGY A` or `STRATEGY B`: configuration, no word. -/
  | heading (σ : Strategy)
  | nop
  | ready
  | start
  | eoc (v : Nat)
  | arm
  | tc (a b c : Nat)
  | clr
  | startCycle
  | trigger
  | armCall
  | consumeAndReset
  | onConversionComplete (v : Nat)
  | onTransferComplete (a b c : Nat)
  | converterReady
  | waitForCompletion
  | waitReady
  /-- A word with no assembler form, written as its hexadecimal value (R54). -/
  | word (w : Nat)
deriving DecidableEq, Repr

/-- An operand is in 0 to 4095 (R54). -/
def operandInRange (v : Nat) : Bool := decide (v ≤ 4095)

/-- "An operand outside its range is an error of the assembler, not a word" (R54). -/
def AsmLine.inRange : AsmLine → Bool
  | .blank => true
  | .heading _ => true
  | .nop => true
  | .ready => true
  | .start => true
  | .eoc v => operandInRange v
  | .arm => true
  | .tc a b c => operandInRange a && operandInRange b && operandInRange c
  | .clr => true
  | .startCycle => true
  | .trigger => true
  | .armCall => true
  | .consumeAndReset => true
  | .onConversionComplete v => operandInRange v
  | .onTransferComplete a b c => operandInRange a && operandInRange b && operandInRange c
  | .converterReady => true
  | .waitForCompletion => true
  | .waitReady => true
  | .word w => decide (w < 2 ^ 40)

/-- The words a line in range emits (R54's table, R55's expansions, R56). The waits are the host's own
behaviour and emit none. -/
def AsmLine.words (σ : Strategy) : AsmLine → List OpWord
  | .blank => []
  | .heading _ => []
  | .nop => [encode .nop]
  | .ready => [encode .ready]
  | .start => [encode .start]
  | .eoc v => [encode (.eoc (BitVec.ofNat 12 v))]
  | .arm => [encode .arm]
  | .tc a b c => [encode (.tc (BitVec.ofNat 12 a) (BitVec.ofNat 12 b) (BitVec.ofNat 12 c))]
  | .clr => [encode .clr]
  | .startCycle => [encode .start]
  | .trigger => [encode .start]
  | .armCall => [encode .arm]
  | .consumeAndReset => (consumeAndResetOps σ).map encode
  | .onConversionComplete v => [encode (.eoc (BitVec.ofNat 12 v))]
  | .onTransferComplete a b c =>
    [encode (.tc (BitVec.ofNat 12 a) (BitVec.ofNat 12 b) (BitVec.ofNat 12 c))]
  | .converterReady => [encode .ready]
  | .waitForCompletion => []
  | .waitReady => []
  | .word w => [BitVec.ofNat 40 w]

/-- Assembling one line: its words, or the assembler's error (R54). -/
def assembleLine (σ : Strategy) (l : AsmLine) : Option (List OpWord) :=
  if l.inRange then some (l.words σ) else none

/-- Assembling the lines after the heading, in order (R54). A further `STRATEGY` line among them emits no word and
does not change the strategy, and an empty or comment-only line emits no word: R54 and D28 speak of neither (DESIGN
CHOICE, log 15). -/
def assembleLines (σ : Strategy) : List AsmLine → Option (List OpWord)
  | [] => some []
  | l :: ls =>
    match assembleLine σ l, assembleLines σ ls with
    | some ws, some rest => some (ws ++ rest)
    | _, _ => none

/-- Assembling a program text: it is headed by its strategy (R54). Empty and comment-only lines may stand before the
heading, of which R54 does not speak; any other line there, or no heading, is an error (DESIGN CHOICE, log 15). -/
def assembleProgram : List AsmLine → Option (Strategy × List OpWord)
  | .blank :: ls => assembleProgram ls
  | .heading σ :: ls =>
    match assembleLines σ ls with
    | some ws => some (σ, ws)
    | none => none
  | _ => none

/-! ## Reading a line of text -/

/-- The characters before the comment (R54: "after `;`"). -/
def uncomment : List Char → List Char
  | [] => []
  | c :: cs => if c = ';' then [] else c :: uncomment cs

/-- The tokens of a line: runs of characters between spaces, and each comma by itself. -/
def tokensFrom (word : List Char) : List Char → List (List Char)
  | [] => if word = [] then [] else [word]
  | c :: cs =>
    if c = ' ' ∨ c = '\t' then (if word = [] then [] else [word]) ++ tokensFrom [] cs
    else if c = ',' then (if word = [] then [] else [word]) ++ [','] :: tokensFrom [] cs
    else tokensFrom (word ++ [c]) cs

/-- The value of a decimal digit. -/
def decDigit (c : Char) : Option Nat :=
  if '0'.toNat ≤ c.toNat ∧ c.toNat ≤ '9'.toNat then some (c.toNat - '0'.toNat) else none

/-- The value of a hexadecimal digit, in either case. -/
def hexDigit (c : Char) : Option Nat :=
  match decDigit c with
  | some d => some d
  | none =>
    if 'A'.toNat ≤ c.toNat ∧ c.toNat ≤ 'F'.toNat then some (c.toNat - 'A'.toNat + 10)
    else if 'a'.toNat ≤ c.toNat ∧ c.toNat ≤ 'f'.toNat then some (c.toNat - 'a'.toNat + 10)
    else none

/-- A number from its digits, most significant first. -/
def digitsValue (base : Nat) (digit : Char → Option Nat) (acc : Nat) : List Char → Option Nat
  | [] => some acc
  | c :: cs =>
    match digit c with
    | some d => digitsValue base digit (base * acc + d) cs
    | none => none

/-- A number, decimal or with `0x` hexadecimal (R7, R54). Leading zeros and any number of digits are read (DESIGN
CHOICE, log 15). -/
def readNumber : List Char → Option Nat
  | [] => none
  | '0' :: 'x' :: c :: cs => digitsValue 16 hexDigit 0 (c :: cs)
  | c :: cs => digitsValue 10 decDigit 0 (c :: cs)

/-- The lines that are one word with no operand (R54, R55). -/
def plainLine (t : List Char) : Option AsmLine :=
  if t = ['N', 'O', 'P'] then some .nop
  else if t = ['R', 'E', 'A', 'D', 'Y'] then some .ready
  else if t = ['S', 'T', 'A', 'R', 'T'] then some .start
  else if t = ['A', 'R', 'M'] then some .arm
  else if t = ['C', 'L', 'R'] then some .clr
  else if t = ['s', 't', 'a', 'r', 't', 'C', 'y', 'c', 'l', 'e'] then some .startCycle
  else if t = ['t', 'r', 'i', 'g', 'g', 'e', 'r'] then some .trigger
  else if t = ['a', 'r', 'm'] then some .armCall
  else if t = ['c', 'o', 'n', 's', 'u', 'm', 'e', 'A', 'n', 'd', 'R', 'e', 's', 'e', 't'] then some .consumeAndReset
  else if t = ['c', 'o', 'n', 'v', 'e', 'r', 't', 'e', 'r', 'R', 'e', 'a', 'd', 'y'] then some .converterReady
  else if t = ['w', 'a', 'i', 't', 'F', 'o', 'r', 'C', 'o', 'm', 'p', 'l', 'e', 't', 'i', 'o', 'n'] then
    some .waitForCompletion
  else if t = ['w', 'a', 'i', 't', 'R', 'e', 'a', 'd', 'y'] then some .waitReady
  else none

/-- The lines with one operand (R54, R55). -/
def unaryLine (t : List Char) (v : Nat) : Option AsmLine :=
  if t = ['E', 'O', 'C'] then some (.eoc v)
  else if t = ['o', 'n', 'C', 'o', 'n', 'v', 'e', 'r', 's', 'i', 'o', 'n', 'C', 'o', 'm', 'p', 'l', 'e', 't', 'e'] then
    some (.onConversionComplete v)
  else none

/-- The lines with three operands (R54, R55). -/
def ternaryLine (t : List Char) (a b c : Nat) : Option AsmLine :=
  if t = ['T', 'C'] then some (.tc a b c)
  else if t = ['o', 'n', 'T', 'r', 'a', 'n', 's', 'f', 'e', 'r', 'C', 'o', 'm', 'p', 'l', 'e', 't', 'e'] then
    some (.onTransferComplete a b c)
  else none

/-- The heading's strategy (R54). -/
def headingLine (t u : List Char) : Option AsmLine :=
  if t = ['S', 'T', 'R', 'A', 'T', 'E', 'G', 'Y'] then
    if u = ['A'] then some (.heading .A) else if u = ['B'] then some (.heading .B) else none
  else none

/-- Does a description in parentheses begin here (R54)? What follows is not read, its closing included (DESIGN CHOICE,
log 15). -/
def isDescription : List Char → Bool
  | '(' :: _ => true
  | _ => false

/-- A hexadecimal word, with or without its description (R54), whether or not the word has an assembler form (DESIGN
CHOICE, log 15). -/
def rawLine (t : List Char) : Option AsmLine :=
  match t with
  | '0' :: 'x' :: cs => (readNumber ('0' :: 'x' :: cs)).map .word
  | _ => none

/-- A line with an operand, the heading, or a word with a description. -/
def operandLine (t u : List Char) : Option AsmLine :=
  match headingLine t u with
  | some l => some l
  | none =>
    if isDescription u then rawLine t
    else
      match readNumber u with
      | some v => unaryLine t v
      | none => none

/-- A line with three operands separated by commas. -/
def blockLine (t a b c : List Char) : Option AsmLine :=
  match readNumber a, readNumber b, readNumber c with
  | some a, some b, some c => ternaryLine t a b c
  | _, _, _ => none

/-- A line from its tokens. No token at all is an empty or comment-only line, before the heading or after it, of which
R54 and D28 do not speak (DESIGN CHOICE, log 15). -/
def lineOfTokens : List (List Char) → Option AsmLine
  | [] => some .blank
  | [t] =>
    match plainLine t with
    | some l => some l
    | none => rawLine t
  | [t, u] => operandLine t u
  | [t, a, [','], b, [','], c] => if isDescription a then rawLine t else blockLine t a b c
  | t :: u :: _ => if isDescription u then rawLine t else none

/-- Reading one line of text (R54). -/
def readLine (cs : List Char) : Option AsmLine := lineOfTokens (tokensFrom [] (uncomment cs))

end Sys2Proof.Machine
end

