-- ==== Sys2Proof/Machine/Datapath.lean ====
section
/-! DEFINITION. The datapath of the block as register-transfer equations: the write enables (20_memory.md R31),
the write-data multiplexer (R32), the slot update (R33), the latch (10_state.md R26), and the updates of
`CI`, `CYC`, `GO` and `start_pulse` (30_encoding.md R49). The operations' meanings are written from their
own rules and not from these equations; that the two agree is a statement. -/

namespace Sys2Proof.Machine

/-- `a_hit`: the sequencer's store (R31). -/
def aHit (i : Instr) (s : State) : Bool :=
  match i with
  | .nop => false
  | .ready => false
  | .start => false
  | .eoc _ => decide (s.strategy = .A)
  | .arm => false
  | .tc _ _ _ => false
  | .clr => false

/-- `b_hit`: the arbiter's accepted block (R31). -/
def bHit (i : Instr) (s : State) : Bool :=
  match i with
  | .nop => false
  | .ready => false
  | .start => false
  | .eoc _ => false
  | .arm => false
  | .tc _ _ _ => decide (s.strategy = .B) && decide (s.cyc = .converting)
  | .clr => false

/-- `we[k]` (R31). -/
def weBit (i : Instr) (s : State) (k : Channel) : Bool :=
  (aHit i s && decide (s.ci = k)) || bHit i s

/-- The write-enable vector, `we[2]` its most significant bit (R31). -/
def weVector (i : Instr) (s : State) : BitVec 3 :=
  BitVec.ofBool (weBit i s .ch2) ++ BitVec.ofBool (weBit i s .ch1) ++ BitVec.ofBool (weBit i s .ch0)

/-- `wdata[k]`: the write-data multiplexer, its select input the strap (R32). -/
def writeData (i : Instr) (σ : Strategy) : Channel → Reading
  | .ch0 => (lanesOf i).w0
  | .ch1 => if σ = .A then (lanesOf i).w0 else (lanesOf i).w1
  | .ch2 => if σ = .A then (lanesOf i).w0 else (lanesOf i).w2

/-- `SB[k]'` (R33). -/
def slotNext (i : Instr) (s : State) (k : Channel) : Reading :=
  if weBit i s k then writeData i s.strategy k else s.slot k

/-- `CI'` (R49). -/
def channelNext (i : Instr) (s : State) : Channel := if aHit i s then s.ci.succ else s.ci

/-- `start_pulse` (R49, R60). -/
def startPulseNext (i : Instr) (s : State) : Bool :=
  match i with
  | .nop => false
  | .ready => false
  | .start => s.go
  | .eoc _ => false
  | .arm => false
  | .tc _ _ _ => false
  | .clr => false

/-- `CYC'` (R49). -/
def cycleNext (i : Instr) (s : State) : CycleState :=
  if s.strategy = .A then s.cyc
  else
    match i with
    | .nop => s.cyc
    | .ready => s.cyc
    | .start => if s.go = true ∧ s.cyc = .armed then .converting else s.cyc
    | .eoc _ => s.cyc
    | .arm => .armed
    | .tc _ _ _ => if s.cyc = .converting then .complete else s.cyc
    | .clr => s.cyc

/-- `GO'` (R49, R85). -/
def gateNext (i : Instr) (s : State) : Bool :=
  match i with
  | .nop => s.go
  | .ready => true
  | .start => s.go
  | .eoc _ => s.go
  | .arm => s.go
  | .tc _ _ _ => s.go
  | .clr => s.go

/-- The whole next state by the equations; the strap and the port are inputs and keep their value. -/
def datapathNext (i : Instr) (s : State) : State where
  sb := { slot0 := slotNext i s .ch0, slot1 := slotNext i s .ch1, slot2 := slotNext i s .ch2 }
  ci := channelNext i s
  cs := completionNext i s
  cyc := cycleNext i s
  go := gateNext i s
  strategy := s.strategy
  pulses := { startPulse := startPulseNext i s, doneRise := doneRiseNext i s, we := weVector i s }
  port := s.port

end Sys2Proof.Machine
end

