-- ==== Sys2Proof/Machine/System.lean ====
section
/-! DEFINITION. The block with its neighbours: the host's program and the contracts of the converter, the copy
engine and the completion context (60_exceptions.md R90, R98 to R107; 70_reset_and_hazards.md R111 to R114,
R124). The neighbours are assumptions around the block and no part of its step (92_eei_decisions.md D23; log
11): a `Move` says which agent acts and with which readings, so every order of whole steps is a run (R98,
93_implementation_defined.md U8), and readings are free (U6). -/

namespace Sys2Proof.Machine

/-- Where the host stands in its program (R100). -/
inductive HostPhase where
  /-- Before the loop: has the startup `ARM` been issued, has `gate = 1` been sampled (R114)? -/
  | boot (armed ready : Bool)
  /-- About to issue `START`. -/
  | start
  /-- Polling `done`. -/
  | waitDone
  /-- `done = 1` was sampled: about to read the buffer. -/
  | consume
  /-- About to issue `CLR`. -/
  | clear
  /-- Strategy B: about to issue `ARM`. -/
  | rearm
deriving DecidableEq, Repr

/-- What the converter and the copy engine are doing (R101 to R103, R111). -/
inductive Converter where
  /-- Not ready yet. -/
  | notReady
  /-- Ready, nothing in flight. -/
  | idle
  /-- A scan is in flight; its next event is the conversion of this channel (R101). -/
  | scanning (next : Channel)
  /-- A conversion with an armed copy is in flight; one `TC` is owed (R102). -/
  | copying
  /-- A conversion whose results the copy engine does not move; no `TC` follows (R102). -/
  | unmoved
deriving DecidableEq, Repr

/-- The block and its neighbours. `notify` is the notification that bring-up enabled (R113, R124). `cycle` and
`taken` are history: the readings delivered since the last `START`, and what the host last read. -/
structure System where
  block : State
  host : HostPhase
  converter : Converter
  notify : Strategy
  cycle : List Reading
  taken : Option SampleBuffer
deriving DecidableEq, Repr

/-- One action of one agent. -/
inductive Move where
  /-- Nobody has anything to present: `NOP`. -/
  | idle
  /-- The converter presents `READY` (R103). -/
  | ready
  /-- The completion context presents `EOC v` (R101). -/
  | eoc (v : Reading)
  /-- The completion context presents `TC a, b, c` (R102). -/
  | tc (a b c : Reading)
  /-- A conversion nobody moves ends; no word. -/
  | scanEnds
  /-- The host issues `ARM`: at startup, or as the second half of `consumeAndReset()`. -/
  | hostArm
  /-- The host samples `gate` or `done`; no word. -/
  | hostPoll
  /-- The host issues `START`. -/
  | hostStart
  /-- The host reads `buf0`, `buf1`, `buf2`; no word. The three samples are taken at one instant: the spec does not
  say whether other agents' steps may come between them (DESIGN CHOICE, log 19). -/
  | hostRead
  /-- The host issues `CLR`. -/
  | hostClear
deriving DecidableEq, Repr

/-- The operation a move presents, if it presents one. -/
def Move.operation : Move → Option Instr
  | .idle => some .nop
  | .ready => some .ready
  | .eoc v => some (.eoc v)
  | .tc a b c => some (.tc a b c)
  | .scanEnds => none
  | .hostArm => some .arm
  | .hostPoll => none
  | .hostStart => some .start
  | .hostRead => none
  | .hostClear => some .clr

/-- The agents that present words (R90). -/
inductive Agent where
  | host
  | completion
  | converter
deriving DecidableEq, Repr

/-- Who may issue an operation: the column "who issues it" of R47 and the ownership of R99. `NOP` is
anyone's. The block checks none of this (R99). -/
def mayIssue (a : Agent) : Instr → Bool
  | .nop => true
  | .ready => decide (a = .converter)
  | .start => decide (a = .host)
  | .eoc _ => decide (a = .completion)
  | .arm => decide (a = .host)
  | .tc _ _ _ => decide (a = .completion)
  | .clr => decide (a = .host)

/-- The order a platform puts simultaneous requests in: the completion context, then the converter, then the
host in its program order (R98). -/
def serialise (completion converter : Option Instr) (host : List Instr) : List Instr :=
  completion.toList ++ converter.toList ++ host

/-- The block after its port was given one operation's word. -/
def blockStep (i : Instr) (s : State) : State := (nextOf (step (s.present (encode i)))).getD s

/-- An agent presents an operation. -/
def System.offer (i : Instr) (y : System) : System := { y with block := blockStep i y.block }

/-- What the neighbours do on a `start_pulse`: idle, they begin a cycle (R101, R102); busy or not ready, the
source does not say and they have no step (93_implementation_defined.md U5; log 14). -/
def onStartPulse (notify : Strategy) (before : State) : Converter → Option Converter
  | .notReady => none
  | .idle =>
    match notify with
    | .A => some (.scanning .ch0)
    | .B => some (if before.cyc = .armed then .copying else .unmoved)
  | .scanning _ => none
  | .copying => none
  | .unmoved => none

/-- The converter after a `START` was presented: it reacts to the pulse and to nothing else (R19, R101). -/
def converterAfterStart (notify : Strategy) (before after : State) (c : Converter) : Option Converter :=
  if after.pulses.startPulse = true then onStartPulse notify before c else some c

/-- The converter once it has presented `READY` (R103). -/
def Converter.afterReady : Converter → Converter
  | .notReady => .idle
  | .idle => .idle
  | .scanning c => .scanning c
  | .copying => .copying
  | .unmoved => .unmoved

/-- The converter after the event of channel `c` (R101: continuous mode is off). -/
def Converter.afterEvent : Channel → Converter
  | .ch0 => .scanning .ch1
  | .ch1 => .scanning .ch2
  | .ch2 => .idle

/-- The host's place in the boot sequence, or the loop when both duties of R114 are done. -/
def bootPhase (armed ready : Bool) : HostPhase :=
  if armed && ready then .start else .boot armed ready

/-- The host's place after its `CLR` (R100, R56). -/
def phaseAfterClear : Strategy → HostPhase
  | .A => .start
  | .B => .rearm

/-- One move of the system, `none` where the agent has no such move in this state. `hostRead` samples the three
slots in the one move (DESIGN CHOICE, log 19). -/
def System.move (m : Move) (y : System) : Option System :=
  match m with
  | .idle => some (y.offer .nop)
  | .ready => some { y.offer .ready with converter := y.converter.afterReady }
  | .eoc v =>
    match y.notify, y.converter with
    | .A, .scanning c =>
      some { y.offer (.eoc v) with converter := Converter.afterEvent c, cycle := y.cycle ++ [v] }
    | _, _ => none
  | .tc a b c =>
    match y.notify, y.converter with
    | .B, .copying => some { y.offer (.tc a b c) with converter := .idle, cycle := [a, b, c] }
    | _, _ => none
  | .scanEnds => if y.converter = .unmoved then some { y with converter := .idle } else none
  | .hostArm =>
    match y.host with
    | .boot false r => some { y.offer .arm with host := bootPhase true r }
    | .rearm => some { y.offer .arm with host := .start }
    | _ => none
  | .hostPoll =>
    match y.host with
    | .boot a false => some (if y.block.levels.gate = true then { y with host := bootPhase a true } else y)
    | .waitDone => some (if y.block.levels.done = true then { y with host := .consume } else y)
    | _ => none
  | .hostStart =>
    if y.host = .start then
      match converterAfterStart y.notify y.block (y.offer .start).block y.converter with
      | some c => some { y.offer .start with host := .waitDone, converter := c, cycle := [] }
      | none => none
    else none
  | .hostRead =>
    if y.host = .consume then
      some { y with host := .clear, taken := some ⟨y.block.levels.buf0, y.block.levels.buf1, y.block.levels.buf2⟩ }
    else none
  | .hostClear =>
    if y.host = .clear then some { y.offer .clr with host := phaseAfterClear y.block.strategy } else none

/-- The start of a run: the block reset, the converter not ready, nothing in flight, no event pending, the copy
engine unconfigured (R111; D22), the host before its boot duties (R114: the `ARM` in Strategy B only). -/
def System.initialWith (σ notify : Strategy) : System where
  block := State.resetWith σ
  host := .boot (decide (σ = .A)) false
  converter := .notReady
  notify := notify
  cycle := []
  taken := none

/-- The start of a run whose bring-up matches the strap (R113). -/
def System.initial (σ : Strategy) : System := System.initialWith σ σ

/-- A run: moves in order, `none` when one of them is not a move of its agent there. -/
def System.run : List Move → System → Option System
  | [], y => some y
  | m :: ms, y =>
    match y.move m with
    | some y' => System.run ms y'
    | none => none

end Sys2Proof.Machine
end

