-- ==== Sys2Proof/Safety.lean ====
section
/-! DEFINITION. What claims about ADCSEQ are stated with: the block's invariant (10_state.md R24), the hazards a
state shows (70_reset_and_hazards.md R116 to R124), the relations between runs, and the protocol's invariant
(60_exceptions.md R104) and the premises of progress (R106). -/

namespace Sys2Proof.Machine

/-- The invariants of R24 that are about one state: the dead strategy's register holds its reset value (b, c),
and a cycle past `Armed` needs an open gate (g). (a) and (e) hold by the types. -/
def BlockInv (s : State) : Prop :=
  (s.strategy = .A → s.cyc = .idle) ∧
  (s.strategy = .B → s.ci = .ch0) ∧
  (s.cyc = .converting ∨ s.cyc = .complete → s.go = true)

/-- The seven registers of R10 agree: what R49 calls the same state. The outputs of the last step and the
waiting words are left out. -/
def SameRegisters (s t : State) : Prop :=
  s.sb = t.sb ∧ s.ci = t.ci ∧ s.cs = t.cs ∧ s.cyc = t.cyc ∧ s.go = t.go ∧ s.strategy = t.strategy

/-- The sequencing and flag registers agree; the buffer may differ. -/
def SameControl (s t : State) : Prop :=
  s.ci = t.ci ∧ s.cs = t.cs ∧ s.cyc = t.cyc ∧ s.go = t.go ∧ s.strategy = t.strategy

/-- Cycle states that differ at most in which of `Idle` and `Complete` they are (R80, D10). -/
def CycleAlike (a b : CycleState) : Prop :=
  a = b ∨ (a = .idle ∧ b = .complete) ∨ (a = .complete ∧ b = .idle)

/-- States that differ at most in which of `Idle` and `Complete` `CYC` holds. -/
def AlikeButCycle (s t : State) : Prop :=
  s.sb = t.sb ∧ s.ci = t.ci ∧ s.cs = t.cs ∧ CycleAlike s.cyc t.cyc ∧ s.go = t.go ∧ s.strategy = t.strategy

/-- What the host or the neighbours do against the protocol, as far as a state of the block shows it. -/
inductive Hazard where
  /-- `START` before `gate = 1` (R122). -/
  | startBeforeReady
  /-- `START` with the old signal standing (R117). -/
  | startOnOldSignal
  /-- Strategy B: `START` with no copy configured (R119). -/
  | startUnarmed
  /-- Strategy B: `START` while a cycle is in flight (R121). -/
  | startInFlight
  /-- Strategy B: `ARM` while `Converting` (R120). -/
  | armInFlight
  /-- Strategy A: an event that overwrites a buffer not yet consumed (R73 (a), R96, R123). -/
  | eventOnOldSignal
  /-- An event or request of the strategy that is not built (R52, R124). -/
  | deadStrategy
deriving DecidableEq, Repr

/-- A hazard if its condition holds. -/
def hazardIf (c : Bool) (h : Hazard) : List Hazard := if c then [h] else []

/-- The hazards of presenting an operation in a state. -/
def hazards (i : Instr) (s : State) : List Hazard :=
  match i with
  | .nop => []
  | .ready => []
  | .start =>
    hazardIf (!s.go) .startBeforeReady ++ hazardIf s.cs .startOnOldSignal ++
    hazardIf (decide (s.strategy = .B) && (decide (s.cyc = .idle) || decide (s.cyc = .complete))) .startUnarmed ++
    hazardIf (decide (s.strategy = .B) && decide (s.cyc = .converting)) .startInFlight
  | .eoc _ =>
    hazardIf (decide (s.strategy = .B)) .deadStrategy ++
    hazardIf (decide (s.strategy = .A) && s.cs) .eventOnOldSignal
  | .arm =>
    hazardIf (decide (s.strategy = .A)) .deadStrategy ++
    hazardIf (decide (s.strategy = .B) && decide (s.cyc = .converting)) .armInFlight
  | .tc _ _ _ => hazardIf (decide (s.strategy = .A)) .deadStrategy
  | .clr => []

/-! ## The protocol -/

/-- A finished cycle: its last datum has come, the signal stands, the buffer is the cycle's data. -/
def System.Finished (y : System) : Prop :=
  y.converter = .idle ∧ y.block.ci = .ch0 ∧ y.block.cs = true ∧
  (y.block.strategy = .B → y.block.cyc = .complete) ∧ y.cycle = y.block.sb.toList

/-- A cycle in flight: the signal is down and the block's place agrees with the neighbours'. -/
def System.InFlight (y : System) : Prop :=
  y.block.cs = false ∧
  match y.block.strategy with
  | .A => y.converter = .scanning y.block.ci ∧ y.cycle = y.block.sb.toList.take y.block.ci.index
  | .B => y.converter = .copying ∧ y.block.cyc = .converting ∧ y.cycle = []

/-- What holds at each place of the host's program (R100, R104). -/
def System.PhaseInv (y : System) : Prop :=
  match y.host with
  | .boot armed ready =>
    y.block.sb = ⟨0#12, 0#12, 0#12⟩ ∧ y.block.cs = false ∧ y.block.ci = .ch0 ∧ (armed && ready) = false ∧
    (y.converter = .notReady ∨ y.converter = .idle) ∧ (ready = true → y.block.go = true) ∧
    (y.block.strategy = .A → armed = true) ∧
    (y.block.strategy = .B → y.block.cyc = if armed then .armed else .idle) ∧
    y.cycle = [] ∧ y.taken = none
  | .start =>
    y.block.go = true ∧ y.block.cs = false ∧ y.block.ci = .ch0 ∧ y.converter = .idle ∧
    (y.block.strategy = .B → y.block.cyc = .armed) ∧ (y.cycle = [] ∨ y.cycle = y.block.sb.toList) ∧
    (y.cycle = [] → y.taken = none) ∧ (y.cycle ≠ [] → y.taken = some y.block.sb)
  | .waitDone => y.block.go = true ∧ (y.InFlight ∨ y.Finished)
  | .consume => y.block.go = true ∧ y.Finished
  | .clear => y.block.go = true ∧ y.Finished ∧ y.taken = some y.block.sb
  | .rearm =>
    y.block.strategy = .B ∧ y.block.go = true ∧ y.block.cs = false ∧ y.block.ci = .ch0 ∧
    y.converter = .idle ∧ y.block.cyc = .complete ∧ y.cycle = y.block.sb.toList ∧ y.taken = some y.block.sb

/-- The protocol's invariant: bring-up matches the strap, every presented word has been taken, the block's
invariant, the gate is open exactly when the converter has reported, and the phase's own clauses. -/
def System.Inv (y : System) : Prop :=
  y.notify = y.block.strategy ∧ y.block.port = [] ∧ BlockInv y.block ∧
  (y.block.go = true ↔ y.converter ≠ .notReady) ∧ y.PhaseInv

/-- The move delivers the last datum of a cycle: the third `EOC`, or the `TC` (R104 (b)). -/
def Move.lastDatum (m : Move) (y : System) : Bool :=
  match m with
  | .eoc _ => decide (y.cycle.length = 2)
  | .tc _ _ _ => true
  | .idle => false
  | .ready => false
  | .scanEnds => false
  | .hostArm => false
  | .hostPoll => false
  | .hostStart => false
  | .hostRead => false
  | .hostClear => false

/-! ## Progress

A run has no end (R106), so what a claim about progress speaks of is an endless run: the states `y 0, y 1, …` and
the moves `m 0, m 1, …` between them. That the agents go on is no part of a run: it is a premise. -/

/-- Each move leads from its state to the next. -/
def EndlessRun (y : Nat → System) (m : Nat → Move) : Prop := ∀ n, (y n).move (m n) = some (y (n + 1))

/-- The move is the host's. -/
def Move.byHost : Move → Bool
  | .idle => false
  | .ready => false
  | .eoc _ => false
  | .tc _ _ _ => false
  | .scanEnds => false
  | .hostArm => true
  | .hostPoll => true
  | .hostStart => true
  | .hostRead => true
  | .hostClear => true

/-- The host goes on with its program: it "spins reading" in its waits and acts between them (R100). That it does so
again and again in an endless run is DEDUCED, log 11. -/
def HostGoesOn (m : Nat → Move) : Prop := ∀ n, ∃ k, n ≤ k ∧ (m k).byHost = true

/-- The neighbour owes a word: `READY`, the next `EOC` of a scan, or the `TC` of a copy (R101 to R103). -/
def Converter.owesWord : Converter → Bool
  | .notReady => true
  | .idle => false
  | .scanning _ => true
  | .copying => true
  | .unmoved => false

/-- The move presents the word that the neighbour owes; the readings are free (R101, R102). -/
def Converter.PaidBy (c : Converter) (m : Move) : Prop :=
  match c with
  | .notReady => m = .ready
  | .idle => False
  | .scanning _ => ∃ v, m = .eoc v
  | .copying => ∃ a b c, m = .tc a b c
  | .unmoved => False

/-- The progress premise of R106: "every working neighbour eventually presents each word it owes", with no bound on
the delay. -/
def NeighboursPresentWhatTheyOwe (y : Nat → System) (m : Nat → Move) : Prop :=
  ∀ n, (y n).converter.owesWord = true → ∃ k, n ≤ k ∧ (y n).converter.PaidBy (m k)

/-- The host stands in one of the two waits of R100: for `gate = 1`, or for `done = 1`. -/
def HostPhase.waiting : HostPhase → Bool
  | .boot _ ready => !ready
  | .start => false
  | .waitDone => true
  | .consume => false
  | .clear => false
  | .rearm => false

end Sys2Proof.Machine
end

