-- ==== Sys2Proof/WellFormed.lean ====
section
/-! DEFINITION. Checks on operations. A lane is a 12-bit value, so every operation has lanes in range and
every operation can be presented (30_encoding.md R46, R51); the check with something to refuse is
`Instr.liveIn`, the column "live in" of R47. The assembler's range check stands with its source lines, in
Machine/Assembler.lean. -/

namespace Sys2Proof

/-- One lane is in [0, 4095] (R46). -/
def laneInRange (v : Nat) : Bool := decide (v ≤ 4095)

/-- The lanes of an operation are readings (R46, R48): true of every operation, by the lanes' type. -/
def Instr.wf : Instr → Bool
  | .nop => true
  | .ready => true
  | .start => true
  | .eoc w0 => laneInRange w0.toNat
  | .arm => true
  | .tc w0 w1 w2 => laneInRange w0.toNat && laneInRange w1.toNat && laneInRange w2.toNat
  | .clr => true

/-- The column "live in" of R47: `EOC` is live in A only, `ARM` and `TC` in B only (R8, R52). -/
def Instr.liveIn (σ : Strategy) : Instr → Bool
  | .nop => true
  | .ready => true
  | .start => true
  | .eoc _ => decide (σ = .A)
  | .arm => decide (σ = .B)
  | .tc _ _ _ => decide (σ = .B)
  | .clr => true

end Sys2Proof
end

