-- ==== Sys2Proof/Certificates/Slice0/Obligations.lean ====
section
/-! DEFINITION. The statements for the provers. Each is over every state, unless a premise says otherwise; a
premise is on the state and the operands alone. "R<n>" is a rule of spec/; "D<n>" is a decision of
92_eei_decisions.md, which the rule it marks states; "log n" is notes/assumptions/n.md. -/

open Sys2Proof Sys2Proof.Machine

/-! ## Encoding -/

/-- R45 to R47: decoding the word of any operation gives the operation back, every lane at every value. The word
layout is D2, the spec's own. -/
def Obligations.DecodeOfEncodeIsTheOperation : Prop :=
  ∀ i : Instr, decode (encode i) = .ok i

/-- R47: "The seven rows are disjoint and, with the reserved range, cover every 40-bit word, so decoding is
total"; the decoder takes the row that `w and mask = match` selects, and reads each opcode and its lanes as the table
says (the values are D2, the spec's own). -/
def Obligations.OpcodeRowsAreDisjointAndCover : Prop :=
  (∀ w : OpWord,
    (opField w = 0x0#4 → decode w = .ok .nop) ∧ (opField w = 0x1#4 → decode w = .ok .ready) ∧
    (opField w = 0x2#4 → decode w = .ok .start) ∧ (opField w = 0x3#4 → decode w = .ok (.eoc (lane0 w))) ∧
    (opField w = 0x4#4 → decode w = .ok .arm) ∧
    (opField w = 0x5#4 → decode w = .ok (.tc (lane0 w) (lane1 w) (lane2 w))) ∧
    (opField w = 0x6#4 → decode w = .ok .clr)) ∧
  ∀ w : OpWord,
    (∃ i r, decode w = .ok i ∧ r ∈ opcodeTable ∧ r.mnemonic = i.mnemonic ∧ w &&& r.mask = r.pattern ∧
      ∀ r' ∈ opcodeTable, w &&& r'.mask = r'.pattern → r' = r) ∨
    (7 ≤ (opField w).toNat ∧ decode w = .error (.reservedOpcode (opField w)) ∧
      ∀ r ∈ opcodeTable, w &&& r.mask ≠ r.pattern)

/-- R45, R46: the four fields are all of a word, and the lanes of `EOC` and `TC` are read from their own bits. -/
def Obligations.FieldsMakeUpTheWord : Prop :=
  (∀ w : OpWord, packWord (opField w) (lane2 w) (lane1 w) (lane0 w) = w) ∧
  (∀ w : OpWord, (opField w).toNat = w.toNat / 2 ^ 36 ∧ (lane2 w).toNat = w.toNat / 2 ^ 24 % 2 ^ 12 ∧
    (lane1 w).toNat = w.toNat / 2 ^ 12 % 2 ^ 12 ∧ (lane0 w).toNat = w.toNat % 2 ^ 12) ∧
  (∀ (w : OpWord) (v : Reading), decode w = .ok (.eoc v) → opField w = 0x3#4 ∧ v = lane0 w) ∧
  (∀ (w : OpWord) (a b c : Reading), decode w = .ok (.tc a b c) → encode (.tc a b c) = w)

/-- R48: which lanes each operation uses. Two words with the same opcode that agree on the lanes the operation
uses have the same step; the encoder writes 0 in the other lanes (D4); every row's mask covers bits 39:36. -/
def Obligations.UnusedLanesHaveNoEffect : Prop :=
  (∀ (s : State) (w w' : OpWord), opField w = opField w' →
    (opField w = 0x3#4 → lane0 w = lane0 w') →
    (opField w = 0x5#4 → lane0 w = lane0 w' ∧ lane1 w = lane1 w' ∧ lane2 w = lane2 w') →
    step (s.present w) = step (s.present w')) ∧
  (∀ i : Instr, (∀ a b c, i ≠ .tc a b c) → lane1 (encode i) = 0#12 ∧ lane2 (encode i) = 0#12 ∧
    ((∀ v, i ≠ .eoc v) → lane0 (encode i) = 0#12)) ∧
  (∀ r ∈ opcodeTable, r.mask = 0xF000000000#40)

/-- R54: the word of each line, and an operand outside 0 to 4095 is the assembler's error (D28). -/
def Obligations.AssembledWordsHaveTheirValues : Prop :=
  (∀ σ v, v ≤ 4095 → ∃ w : OpWord, assembleLine σ (.eoc v) = some [w] ∧ w.toNat = 0x3000000000 + v) ∧
  (∀ σ a b c, a ≤ 4095 → b ≤ 4095 → c ≤ 4095 →
    ∃ w : OpWord, assembleLine σ (.tc a b c) = some [w] ∧
      w.toNat = 0x5000000000 + c * 2 ^ 24 + b * 2 ^ 12 + a) ∧
  (∀ σ v, 4095 < v → assembleLine σ (.eoc v) = none) ∧
  (∀ σ a b c, 4095 < a ∨ 4095 < b ∨ 4095 < c → assembleLine σ (.tc a b c) = none) ∧
  (∀ σ, assembleLine σ .nop = some [0x0000000000#40] ∧ assembleLine σ .ready = some [0x1000000000#40] ∧
    assembleLine σ .start = some [0x2000000000#40] ∧ assembleLine σ .arm = some [0x4000000000#40] ∧
    assembleLine σ .clr = some [0x6000000000#40])

/-- 95_test_vectors.md's decode vectors: words written out from R45 and R47 decode to what they stand for. -/
def Obligations.WrittenOutWordsDecode : Prop :=
  decode 0x0FFFFFFFFF#40 = .ok .nop ∧
  decode 0x1123DEFABC#40 = .ok .ready ∧
  decode 0x2000000000#40 = .ok .start ∧
  decode 0x3555AAAFFF#40 = .ok (.eoc 4095#12) ∧
  decode 0x4000000000#40 = .ok .arm ∧
  decode 0x512C0C8064#40 = .ok (.tc 100#12 200#12 300#12) ∧
  decode 0x6003002001#40 = .ok .clr ∧
  decode 0xF123456789#40 = .error (.reservedOpcode 0xF#4)

/-! ## The step -/

/-- R6, R45 and log 3: the step at a port whose first word decodes to `i` is `exec i` on the state with that
word taken. That the words stand in the state's port is the model's choice. -/
def Obligations.StepRunsThePresentedOperation : Prop :=
  ∀ (s : State) (w : OpWord) (rest : List OpWord) (i : Instr),
    s.port = w :: rest → decode w = .ok i → step s = exec i { s with port := rest }

/-- Log 4 (DEDUCED from R45's "An agent that has nothing to do presents `NOP`"): with no word waiting the step
is a `NOP`'s, registers and all. The model's choice. -/
def Obligations.EmptyPortStepsAsNop : Prop :=
  ∀ s : State, s.port = [] → step s = exec .nop s ∧ step s = .next { s with pulses := Pulses.quiet }

/-- R50, and log 6 (DESIGN CHOICE): the decoder rejects a reserved opcode by name, and the block's step on such a
word has no state change and no pulse. -/
def Obligations.ReservedWordChangesNothing : Prop :=
  ∀ (s : State) (w : OpWord), 7 ≤ (opField w).toNat →
    decode w = .error (.reservedOpcode (opField w)) ∧
    step (s.present w) = .next { s with pulses := Pulses.quiet }

/-- R49 and R94: every operation in every state and every step has a next state; none faults and none is
refused (with log 6 for reserved words and log 4 for an empty port). -/
def Obligations.EveryStepCompletes : Prop :=
  (∀ (i : Instr) (s : State), ∃ t, exec i s = .next t) ∧ (∀ s : State, ∃ t, step s = .next t) ∧
  (∀ (s : State) (f : Fault), step s ≠ .fault f) ∧ (∀ (s : State) (r : Refusal), step s ≠ .refused r)

/-! ## The operations -/

/-- R87: `NOP`, with any lanes, changes no register and raises no pulse, and inserting or removing `NOP`s
anywhere changes no later state and no other step's pulses. -/
def Obligations.NopIsNothingAnywhere : Prop :=
  (∀ w2 w1 w0 : Reading, decode (packWord 0x0#4 w2 w1 w0) = .ok .nop) ∧
  (∀ s : State, exec .nop s = .next { s with pulses := Pulses.quiet }) ∧
  (∀ (is js : List Instr) (s : State),
    SameRegisters (runOps (is ++ .nop :: js) s) (runOps (is ++ js) s) ∧
    (js ≠ [] → runOps (is ++ .nop :: js) s = runOps (is ++ js) s) ∧
    pulseTrace (is ++ .nop :: js) s =
      pulseTrace is s ++ Pulses.quiet :: (pulseTrace (is ++ js) s).drop is.length)

/-- R85: `READY`, with any lanes, sets `GO` and writes nothing else; no pulse. -/
def Obligations.ReadyOpensTheGateOnly : Prop :=
  (∀ w2 w1 w0 : Reading, decode (packWord 0x1#4 w2 w1 w0) = .ok .ready) ∧
  ∀ s : State, exec .ready s = .next { s with go := true, pulses := Pulses.quiet }

/-- R60, R61: `START`, with any lanes. Gate closed: nothing at all. Gate open: `start_pulse`, and `CYC` moves from
`Armed` to `Converting` in Strategy B; every other register stays. (That a dropped `START` is not remembered is
D9, the spec's own; that the pulse is raised when the arbiter does not move is D13.) -/
def Obligations.StartTriggersThroughTheGate : Prop :=
  (∀ w2 w1 w0 : Reading, decode (packWord 0x2#4 w2 w1 w0) = .ok .start) ∧
  (∀ s : State, s.go = false → exec .start s = .next { s with pulses := Pulses.quiet }) ∧
  (∀ s : State, s.go = true → s.strategy = .B → s.cyc = .armed →
    exec .start s =
      .next { s with cyc := .converting, pulses := { startPulse := true, doneRise := false, we := 0b000#3 } }) ∧
  (∀ s : State, s.go = true → s.strategy = .A ∨ s.cyc ≠ .armed →
    exec .start s = .next { s with pulses := { startPulse := true, doneRise := false, we := 0b000#3 } })

/-- R63: `CLR`, with any lanes, makes `CS` 0 whatever it was and writes nothing else; no pulse. (That `CI` is
not written is D20, the spec's own.) -/
def Obligations.ClrClearsTheSignalOnly : Prop :=
  (∀ w2 w1 w0 : Reading, decode (packWord 0x6#4 w2 w1 w0) = .ok .clr) ∧
  ∀ s : State, exec .clr s = .next { s with cs := false, pulses := Pulses.quiet }

/-- R70 to R72: `EOC v`, with any upper lanes. Strategy A: the three rows of the transition table, whatever `GO`,
`CS` and `CYC` are. Strategy B: masked. -/
def Obligations.EocFollowsTheTransitionTable : Prop :=
  (∀ w2 w1 v : Reading, decode (packWord 0x3#4 w2 w1 v) = .ok (.eoc v)) ∧
  (∀ (s : State) (v : Reading), s.strategy = .A → s.ci = .ch0 →
    exec (.eoc v) s = .next { s with
      sb := { s.sb with slot0 := v }, ci := .ch1,
      pulses := { startPulse := false, doneRise := false, we := 0b001#3 } }) ∧
  (∀ (s : State) (v : Reading), s.strategy = .A → s.ci = .ch1 →
    exec (.eoc v) s = .next { s with
      sb := { s.sb with slot1 := v }, ci := .ch2,
      pulses := { startPulse := false, doneRise := false, we := 0b010#3 } }) ∧
  (∀ (s : State) (v : Reading), s.strategy = .A → s.ci = .ch2 →
    exec (.eoc v) s = .next { s with
      sb := { s.sb with slot2 := v }, ci := .ch0, cs := true,
      pulses := { startPulse := false, doneRise := !s.cs, we := 0b100#3 } }) ∧
  (∀ (s : State) (v : Reading), s.strategy = .B → exec (.eoc v) s = .next { s with pulses := Pulses.quiet })

/-- R75, R76: `ARM`, with any lanes. Strategy B: `CYC` becomes `Armed` from every value, whatever `GO` is, and
nothing else is written. Strategy A: masked. (The rows beyond the document's own use are D12, not gated is D24.) -/
def Obligations.ArmArmsFromEveryCycleState : Prop :=
  (∀ w2 w1 w0 : Reading, decode (packWord 0x4#4 w2 w1 w0) = .ok .arm) ∧
  (∀ s : State, s.strategy = .B → exec .arm s = .next { s with cyc := .armed, pulses := Pulses.quiet }) ∧
  (∀ s : State, s.strategy = .A → exec .arm s = .next { s with pulses := Pulses.quiet })

/-- R78, R79: `TC a, b, c`. Strategy B in `Converting`: the three slots, `CYC`, `CS` and the pulses, in one step.
In every other cycle state and in Strategy A: nothing at all. (Ignoring it outside `Converting` is D11.) -/
def Obligations.TcIsAcceptedInConvertingOnly : Prop :=
  (∀ a b c : Reading, decode (packWord 0x5#4 c b a) = .ok (.tc a b c)) ∧
  (∀ (s : State) (a b c : Reading), s.strategy = .B → s.cyc = .converting →
    exec (.tc a b c) s = .next { s with
      sb := { slot0 := a, slot1 := b, slot2 := c }, cyc := .complete, cs := true,
      pulses := { startPulse := false, doneRise := !s.cs, we := 0b111#3 } }) ∧
  (∀ (s : State) (a b c : Reading), s.strategy = .A ∨ s.cyc ≠ .converting →
    exec (.tc a b c) s = .next { s with pulses := Pulses.quiet })

/-- R52 (D7): an operation of the dead strategy changes no state and raises no pulse; `NOP`, `READY`, `START`,
`CLR` are live in both, `EOC` in A only, `ARM` and `TC` in B only. -/
def Obligations.DeadStrategyOperationsAreMasked : Prop :=
  (∀ (i : Instr) (s : State), i.liveIn s.strategy = false → exec i s = .next { s with pulses := Pulses.quiet }) ∧
  (∀ (i : Instr) (σ : Strategy), i.liveIn σ = false ↔
    (σ = .B ∧ ∃ v, i = .eoc v) ∨ (σ = .A ∧ (i = .arm ∨ ∃ a b c, i = .tc a b c)))

/-! ## The datapath -/

/-- R49: the operations' meanings, each written from its own rule, are the register-transfer equations of R26,
R31 to R33 and R49, for every operation in every state. -/
def Obligations.OperationsRefineTheDatapath : Prop :=
  ∀ (i : Instr) (s : State), exec i s = .next (datapathNext i s)

/-- R31: the write enables of every step: one-hot at `CI` for a live `EOC`, 0b111 for an accepted `TC`, 0b000 in
every other step. -/
def Obligations.WriteEnablesFollowTheRule : Prop :=
  ∀ (s t : State), step s = .next t →
    (∀ v, decode s.presented = .ok (.eoc v) → s.strategy = .A →
      (s.ci = .ch0 → t.pulses.we = 0b001#3) ∧ (s.ci = .ch1 → t.pulses.we = 0b010#3) ∧
      (s.ci = .ch2 → t.pulses.we = 0b100#3)) ∧
    (∀ a b c, decode s.presented = .ok (.tc a b c) → s.strategy = .B → s.cyc = .converting →
      t.pulses.we = 0b111#3) ∧
    ((∀ v, decode s.presented = .ok (.eoc v) → s.strategy = .B) →
      (∀ a b c, decode s.presented = .ok (.tc a b c) → s.strategy = .A ∨ s.cyc ≠ .converting) →
      t.pulses.we = 0b000#3)

/-- R33 with R32's write data: a slot takes its lane (Strategy A: the event's one reading; Strategy B: its own
lane) exactly when its write enable is 1 in the step, else it keeps its value. -/
def Obligations.SlotsChangeThroughTheirWriteEnable : Prop :=
  ∀ (s t : State), step s = .next t → ∀ k : Channel,
    t.slot k =
      if t.pulses.we.getLsbD k.index = true then
        (match s.strategy, k with
          | .A, _ => lane0 s.presented
          | .B, .ch0 => lane0 s.presented
          | .B, .ch1 => lane1 s.presented
          | .B, .ch2 => lane2 s.presented)
      else s.slot k

/-- R42: no step but a live `EOC` and an accepted `TC` writes a slot: not `CLR`, not a masked or unaccepted event,
not a reserved word. -/
def Obligations.OnlyLiveEventsWriteTheBuffer : Prop :=
  ∀ (s t : State), step s = .next t →
    (∀ v, decode s.presented = .ok (.eoc v) → s.strategy = .B) →
    (∀ a b c, decode s.presented = .ok (.tc a b c) → s.strategy = .A ∨ s.cyc ≠ .converting) →
    t.sb = s.sb ∧ t.pulses.we = 0b000#3

/-- R26: the completion latch and its edge detector, for every operation in every state (`setCond` and `clrCond` are
the rule's `set` and `clr`, from the state before the step); `set` and `clr` never meet,
and `done_rise` is raised in exactly the steps where `CS` goes from 0 to 1 (D14). -/
def Obligations.CompletionLatchFollowsItsEquation : Prop :=
  ∀ (i : Instr) (s t : State), exec i s = .next t →
    ¬(setCond i s = true ∧ clrCond i = true) ∧
    (setCond i s = true → t.cs = true) ∧
    (setCond i s = false → clrCond i = true → t.cs = false) ∧
    (setCond i s = false → clrCond i = false → t.cs = s.cs) ∧
    (t.pulses.doneRise = true ↔ setCond i s = true ∧ s.cs = false) ∧
    (t.pulses.doneRise = true ↔ s.cs = false ∧ t.cs = true)

/-- R19, R60: `start_pulse` is raised by `START` through an open gate and by no other step. -/
def Obligations.StartPulseComesFromStartAlone : Prop :=
  ∀ (s t : State), step s = .next t →
    (t.pulses.startPulse = true ↔ decode s.presented = .ok .start ∧ s.go = true)

/-- R40, R39: in the step that raises `done`, the last datum of the cycle is already in the buffer: Strategy A
slot 2 holds the event's reading and the slots of the earlier events are as those left them; Strategy B the whole
block. -/
def Obligations.BufferIsWrittenByTheStepThatSignals : Prop :=
  ∀ (i : Instr) (s t : State), exec i s = .next t → s.levels.done = false → t.levels.done = true →
    (∃ v, i = .eoc v ∧ t.levels.buf0 = s.levels.buf0 ∧ t.levels.buf1 = s.levels.buf1 ∧ t.levels.buf2 = v) ∨
    (∃ a b c, i = .tc a b c ∧ t.levels.buf0 = a ∧ t.levels.buf1 = b ∧ t.levels.buf2 = c)

/-! ## State, outputs, reset -/

/-- R21: reset of either build: every register at its reset value, every pulse 0, STATUS 0x00 in Strategy A and
0x40 in Strategy B. (`CI`, `CS`, `GO` are D15, `CYC` is D10, the spec's own.) -/
def Obligations.ResetLeavesTheResetState : Prop :=
  (∀ σ, (State.resetWith σ).sb = ⟨0#12, 0#12, 0#12⟩ ∧ (State.resetWith σ).ci = .ch0 ∧
    (State.resetWith σ).cs = false ∧ (State.resetWith σ).cyc = .idle ∧ (State.resetWith σ).go = false ∧
    (State.resetWith σ).strategy = σ ∧
    (State.resetWith σ).pulses = { startPulse := false, doneRise := false, we := 0b000#3 }) ∧
  (State.resetWith .A).status = 0x00#7 ∧ (State.resetWith .B).status = 0x40#7

/-- Log 2 (DESIGN CHOICE), log 3 and log 18: the model's own values at reset: the strap A, no word waiting; asserting
`rst` in any state begins a new run in the reset state of the same strap (R110; the form of it is the model's). -/
def Obligations.ModelResetIsTheStrategyABuild : Prop :=
  State.reset = State.resetWith .A ∧ State.reset.port = [] ∧ core.reset = State.resetWith .A ∧
  ∀ s : State, s.assertReset = State.resetWith s.strategy

/-- R20, with the codes of R15 and the strap's bit of R17: the fields of STATUS (D17). -/
def Obligations.StatusWordLayout : Prop :=
  ∀ s : State,
    s.status.getLsbD 0 = s.cs ∧ s.status.getLsbD 1 = s.go ∧
    s.status.extractLsb' 2 2 = (match s.ci with | .ch0 => 0b00#2 | .ch1 => 0b01#2 | .ch2 => 0b10#2) ∧
    s.status.extractLsb' 4 2 =
      (match s.cyc with | .idle => 0b00#2 | .armed => 0b01#2 | .converting => 0b10#2 | .complete => 0b11#2) ∧
    s.status.getLsbD 6 = decide (s.strategy = .B)

/-- R18: the level outputs show the registers. -/
def Obligations.LevelOutputsShowTheRegisters : Prop :=
  ∀ s : State,
    s.levels.done = s.cs ∧ s.levels.gate = s.go ∧ s.levels.buf0 = s.sb.slot0 ∧ s.levels.buf1 = s.sb.slot1 ∧
    s.levels.buf2 = s.sb.slot2 ∧ s.levels.chidx.toNat = s.ci.index ∧
    s.levels.cyc.toNat = (match s.cyc with | .idle => 0 | .armed => 1 | .converting => 2 | .complete => 3)

/-- R11: a reading seen as a native word sits in the low bits and the bits above it are 0 (D5), whatever `NATIVE_W`
is. -/
def Obligations.NativeWordIsRightAligned : Prop :=
  12 ≤ Config.nativeW ∧
  ∀ v : Reading, (nativeReading v).toNat = v.toNat ∧ ∀ k, 12 ≤ k → (nativeReading v).getLsbD k = false

/-- R24 (b), (c), (g): the block's invariant is kept by every step from every state that has it, and the strap never
changes (R17). -/
def Obligations.BlockInvariantIsKept : Prop :=
  ∀ (s t : State), BlockInv s → step s = .next t → BlockInv t ∧ t.strategy = s.strategy

/-- R24: the block's invariant holds in the reset state of either build. -/
def Obligations.BlockInvariantHoldsAtReset : Prop :=
  (∀ σ, BlockInv (State.resetWith σ)) ∧ BlockInv State.reset

/-- R112, R86, R24 (d): no step returns `GO` to 0, none returns `CYC` to `Idle`, and `CI` moves only by counting; so
only reset undoes them. -/
def Obligations.ResetIsTheOnlyRecovery : Prop :=
  ∀ (s t : State), step s = .next t →
    (s.go = true → t.go = true) ∧ (s.cyc ≠ .idle → t.cyc ≠ .idle) ∧
    (t.ci = s.ci ∨ (t.ci.index = (s.ci.index + 1) % 3 ∧ ∃ v, decode s.presented = .ok (.eoc v)))

/-- R8, R22: along any sequence of operations the strap stays, and the dead strategy's register keeps its value. -/
def Obligations.DeadStrategyRegisterNeverMoves : Prop :=
  ∀ (ops : List Instr) (s : State),
    (runOps ops s).strategy = s.strategy ∧
    (s.strategy = .A → (runOps ops s).cyc = s.cyc) ∧ (s.strategy = .B → (runOps ops s).ci = s.ci)

/-! ## Sequences of operations -/

/-- R6, R45 and log 3: presenting the encoded words of a list of operations and stepping as often runs the
operations in order and takes every word. -/
def Obligations.RunOfWordsIsRunOfOperations : Prop :=
  ∀ (ops : List Instr) (s : State),
    Host.Core.run core ops.length { s with port := ops.map encode } = .next (runOps ops { s with port := [] }) ∧
    (runOps ops { s with port := [] }).port = []

/-- R74: Strategy A. Three events with any other operations before, between and after them: the k-th reading lands in
slot `(c + k) mod 3`, `CI` is back at `c`; and if the cycle began at 0 and no `CLR` came after the third event,
`CS` is 1. -/
def Obligations.ThreeEventsFillTheBuffer : Prop :=
  ∀ (s : State) (v0 v1 v2 : Reading) (l0 l1 l2 l3 : List Instr),
    s.strategy = .A → (∀ v, Instr.eoc v ∉ l0) → (∀ v, Instr.eoc v ∉ l1) → (∀ v, Instr.eoc v ∉ l2) →
    (∀ v, Instr.eoc v ∉ l3) →
    ∀ t, t = runOps (l0 ++ .eoc v0 :: (l1 ++ .eoc v1 :: (l2 ++ .eoc v2 :: l3))) s →
      t.slot s.ci = v0 ∧ t.slot s.ci.succ = v1 ∧ t.slot s.ci.succ.succ = v2 ∧ t.ci = s.ci ∧
      (s.ci = .ch0 → Instr.clr ∉ l3 → t.cs = true)

/-- R73 (a), (b): Strategy A, a finished cycle not yet cleared. A fourth event overwrites slot 0 and the signal stays
up with no edge; three more bring no second edge and one `CLR` then leaves `CS = 0`: completions are not counted. -/
def Obligations.StrayEventsCorruptAndAreNotCounted : Prop :=
  ∀ (s : State) (x y z : Reading), s.strategy = .A → s.ci = .ch0 → s.cs = true →
    (runOps [.eoc x] s).sb = { s.sb with slot0 := x } ∧ (runOps [.eoc x] s).ci = .ch1 ∧
    (runOps [.eoc x] s).cs = true ∧
    (∀ p ∈ pulseTrace [.eoc x, .eoc y, .eoc z] s, p.doneRise = false) ∧
    (runOps [.eoc x, .eoc y, .eoc z] s).cs = true ∧ (runOps [.eoc x, .eoc y, .eoc z, .clr] s).cs = false

/-- R73 (c): Strategy A, a cycle that starts one place out of step, with the host's `CLR` and `START` before it: the
second event raises the signal while slot 0 holds an old value, and the sequencer is still out of step after. -/
def Obligations.MisalignmentPersists : Prop :=
  ∀ (s : State) (v0 v1 v2 : Reading), s.strategy = .A → s.ci = .ch1 →
    (runOps [.clr, .start, .eoc v0] s).cs = false ∧
    (runOps [.clr, .start, .eoc v0, .eoc v1] s).cs = true ∧
    (runOps [.clr, .start, .eoc v0, .eoc v1] s).sb = ⟨s.sb.slot0, v0, v1⟩ ∧
    (runOps [.clr, .start, .eoc v0, .eoc v1, .eoc v2] s).sb = ⟨v2, v0, v1⟩ ∧
    (runOps [.clr, .start, .eoc v0, .eoc v1, .eoc v2] s).ci = .ch1

/-- R39: Strategy B. From an effective `START` on an armed block, through any operations but `ARM` and `TC`, every
state shows the old buffer; the accepted `TC` then shows the whole block, the signal and `Complete` at once. -/
def Obligations.BlockTransferIsAtomic : Prop :=
  ∀ (s : State) (mid : List Instr) (a b c : Reading),
    s.strategy = .B → s.cyc = .armed → s.go = true → Instr.arm ∉ mid → (∀ x y z, Instr.tc x y z ∉ mid) →
    (∀ pre, pre <+: .start :: mid → (runOps pre s).sb = s.sb) ∧
    (runOps (.start :: mid ++ [.tc a b c]) s).sb = ⟨a, b, c⟩ ∧
    (runOps (.start :: mid ++ [.tc a b c]) s).cs = true ∧
    (runOps (.start :: mid ++ [.tc a b c]) s).cyc = .complete

/-- R81: Strategy B, between two `ARM`s at most one step has `set = 1`; and none without a copy armed or in flight. -/
def Obligations.OneCompletionPerArming : Prop :=
  ∀ (ops : List Instr) (s : State), s.strategy = .B → Instr.arm ∉ ops →
    setCount ops s ≤ 1 ∧ (s.cyc = .idle ∨ s.cyc = .complete → setCount ops s = 0)

/-- R80: "The only path that sets `CS` in Strategy B is `ARM`, `START` with `GO = 1`, `TC`, in that order, with no
`ARM` between the `START` and the `TC`", for every sequence of operations from reset that ends with `CS = 1`. -/
def Obligations.OnlyPathToCompletionInStrategyB : Prop :=
  ∀ ops : List Instr, (runOps ops (State.resetWith .B)).cs = true →
    ∃ pre mid post a b c, ops = pre ++ .start :: (mid ++ .tc a b c :: post) ∧ Instr.arm ∈ pre ∧
      Instr.arm ∉ mid ∧ (runOps pre (State.resetWith .B)).go = true ∧
      (runOps pre (State.resetWith .B)).cyc = .armed

/-- R86: from reset, as long as no `READY` has been stepped, no step has `start_pulse`; in Strategy B `CYC` is never
`Converting` or `Complete`, `CS` stays 0 and the buffer stays zero whatever `TC` arrive; in Strategy A the same of
`CS` and the buffer if no `EOC` arrives. -/
def Obligations.ClosedGateBlocksEveryCycle : Prop :=
  ∀ (σ : Strategy) (ops : List Instr), Instr.ready ∉ ops →
    (∀ p ∈ pulseTrace ops (State.resetWith σ), p.startPulse = false) ∧
    (σ = .B → (runOps ops (State.resetWith σ)).cyc ≠ .converting ∧ (runOps ops (State.resetWith σ)).cyc ≠ .complete) ∧
    (σ = .B ∨ (∀ v, Instr.eoc v ∉ ops) →
      (runOps ops (State.resetWith σ)).cs = false ∧ (runOps ops (State.resetWith σ)).sb = ⟨0#12, 0#12, 0#12⟩)

/-- R86, R72 and 90_conflicts.md C2: the gate blocks the effect of `START` and nothing else: every other operation has
the same effect with the gate open or closed. -/
def Obligations.GateBlocksNothingButStart : Prop :=
  ∀ (i : Instr) (s t : State) (g : Bool), i ≠ .start → exec i s = .next t →
    exec i { s with go := g } = .next { t with go := if i = .ready then true else g }

/-- R60 (D9): a `START` dropped while the gate was closed is not replayed: without a further `START`, no step raises
`start_pulse` and the arbiter does not go to `Converting`. -/
def Obligations.DroppedStartIsNotReplayed : Prop :=
  ∀ (s : State) (ops : List Instr), s.go = false → Instr.start ∉ ops →
    (∀ p ∈ pulseTrace (.start :: ops) s, p.startPulse = false) ∧
    (s.cyc ≠ .converting → (runOps (.start :: ops) s).cyc ≠ .converting)

/-- R80, R15 (D10): `Idle` and `Complete` behave alike: runs of the same operations from states that differ only in
which of the two `CYC` holds have the same pulses step by step and stay alike. -/
def Obligations.IdleAndCompleteBehaveAlike : Prop :=
  ∀ (ops : List Instr) (s t : State), AlikeButCycle s t →
    AlikeButCycle (runOps ops s) (runOps ops t) ∧ pulseTrace ops s = pulseTrace ops t

/-- 93_implementation_defined.md U6 ("no rule's effect depends on its value") and R88: readings never influence
control: two runs of the same opcodes with any readings have the same sequencing and flag registers and the same
pulses. -/
def Obligations.ReadingsNeverInfluenceControl : Prop :=
  ∀ (ops ops' : List Instr) (s t : State), ops.map opcodeOf = ops'.map opcodeOf → SameControl s t →
    SameControl (runOps ops s) (runOps ops' t) ∧ pulseTrace ops s = pulseTrace ops' t

/-- R64 (b), R56: `consumeAndReset()` twice with no intervening events: the buffer unchanged and `CS = 0` both times,
and the second call changes no register. -/
def Obligations.ConsumeAndResetIsIdempotent : Prop :=
  ∀ (s r : State), r = runOps (consumeAndResetOps s.strategy) s →
    r.cs = false ∧ r.sb = s.sb ∧ (s.strategy = .B → r.cyc = .armed) ∧
    (runOps (consumeAndResetOps r.strategy) r).cs = false ∧ (runOps (consumeAndResetOps r.strategy) r).sb = s.sb ∧
    SameRegisters (runOps (consumeAndResetOps r.strategy) r) r

/-- R98, R64 (d): a `CLR` and a completion event that meet are taken event first (D18), so the signal ends at 0
whatever the event did, and the buffer and the sequencing registers are the event's. -/
def Obligations.ClrMeetingAnEventErasesTheCompletion : Prop :=
  ∀ (s : State) (e : Instr) (ready : Option Instr), (∃ v, e = .eoc v) ∨ (∃ a b c, e = .tc a b c) →
    ready = none ∨ ready = some .ready →
    (runOps (serialise (some e) ready [.clr]) s).cs = false ∧
    (runOps (serialise (some e) ready [.clr]) s).sb = (after e s).sb ∧
    (runOps (serialise (some e) ready [.clr]) s).ci = (after e s).ci ∧
    (runOps (serialise (some e) ready [.clr]) s).cyc = (after e s).cyc

/-- R120, R76: Strategy B, `ARM` while `Converting` loses the cycle: through any operations without a `START`, the
buffer stays, the signal is not raised, and the arbiter ends `Armed`. -/
def Obligations.ArmWhileConvertingLosesTheCycle : Prop :=
  ∀ (s : State) (mid : List Instr), s.strategy = .B → s.cyc = .converting → Instr.start ∉ mid →
    (runOps (.arm :: mid) s).sb = s.sb ∧ (runOps (.arm :: mid) s).cyc = .armed ∧
    (s.cs = false → (runOps (.arm :: mid) s).cs = false)

/-- R117 to R122, R119: a `START` that shows no hazard is effective and begins a cycle: the pulse is raised, the signal
is down, and in Strategy B the arbiter goes from `Armed` to `Converting`. -/
def Obligations.StartWithoutHazardBeginsACycle : Prop :=
  ∀ s : State, hazards .start s = [] →
    ∃ t, exec .start s = .next t ∧ t.pulses.startPulse = true ∧ t.cs = false ∧ t.sb = s.sb ∧ t.ci = s.ci ∧
      (s.strategy = .B → s.cyc = .armed ∧ t.cyc = .converting) ∧ (s.strategy = .A → t.cyc = s.cyc)

/-! ## The block and its neighbours -/

/-- R104, log 11: the protocol's invariant is kept by every move of every agent, from every state of the system that
has it. -/
def Obligations.ProtocolInvariantIsKept : Prop :=
  ∀ (m : Move) (y y' : System), y.Inv → y.move m = some y' → y'.Inv

/-- R111, log 11: the protocol's invariant holds at the start of a run, in either build. -/
def Obligations.ProtocolInvariantHoldsInitially : Prop :=
  ∀ σ : Strategy, (System.initial σ).Inv

/-- R104 (a), (f), log 11: in every run of the protocol, in either build, every `START` the host issues is effective and finds
the sequencer aligned or the arbiter `Armed`, and `CI = 0` at every `CLR` of Strategy A. -/
def Obligations.EveryStartIsEffectiveAndAligned : Prop :=
  ∀ (σ : Strategy) (ms : List Move) (y : System), System.run ms (System.initial σ) = some y →
    (y.host = .start → (y.move .hostStart).isSome = true) ∧
    (∀ y', y.move .hostStart = some y' → y'.block.pulses.startPulse = true ∧
      (σ = .A → y.block.ci = .ch0) ∧ (σ = .B → y.block.cyc = .armed ∧ y'.block.cyc = .converting)) ∧
    (∀ y', y.move .hostClear = some y' → σ = .A → y.block.ci = .ch0)

/-- R104 (b), (c), (d), log 11 (the history field `cycle`): in every run of the protocol the signal rises in the step of a cycle's last datum and in no
other step, never while it is up; and it is down from the host's `CLR` until the cycle's data are complete. -/
def Obligations.SignalRisesOncePerCycle : Prop :=
  ∀ (σ : Strategy) (ms : List Move) (y : System), System.run ms (System.initial σ) = some y →
    (∀ m i y', m.operation = some i → y.move m = some y' →
      (y'.block.pulses.doneRise = true ↔ m.lastDatum y = true) ∧
      (y'.block.pulses.doneRise = true → y.block.cs = false ∧ y'.block.cs = true) ∧
      (setCond i y.block = true → y.block.cs = false)) ∧
    (y.host = .start ∨ y.host = .rearm → y.block.cs = false) ∧
    (y.host = .waitDone → (y.block.cs = true ↔ y.cycle.length = 3))

/-- R104 (e), log 11 (the history fields `cycle` and `taken`), log 19: in every run of the protocol, from the step that sets `CS` until the next `START` no move writes the
buffer, and what the host samples is the cycle's data, in channel order. -/
def Obligations.HostReadsTheCyclesData : Prop :=
  ∀ (σ : Strategy) (ms : List Move) (y : System), System.run ms (System.initial σ) = some y →
    (y.block.cs = true → [y.block.levels.buf0, y.block.levels.buf1, y.block.levels.buf2] = y.cycle) ∧
    (∀ m y', y.block.cs = true ∨ y.host = .rearm ∨ y.host = .start → y.move m = some y' → y'.block.sb = y.block.sb) ∧
    (y.host = .clear ∨ y.host = .rearm → ∃ b, y.taken = some b ∧ b.toList = y.cycle ∧ y.cycle.length = 3)

/-- R104 (g), log 11: in every run of the protocol in Strategy B the cycle state moves `Armed`, `Converting`, `Complete`,
`Armed`, each by its own agent: the host's `START`, the accepted `TC`, the host's `ARM`; no other move moves it. -/
def Obligations.CycleStatesComeInOrder : Prop :=
  ∀ (ms : List Move) (y y' : System) (m : Move), System.run ms (System.initial .B) = some y → y.move m = some y' →
    (m = .hostStart → y.block.cyc = .armed ∧ y'.block.cyc = .converting) ∧
    ((∃ a b c, m = .tc a b c) → y.block.cyc = .converting ∧ y'.block.cyc = .complete) ∧
    (m = .hostArm → (y.block.cyc = .complete ∨ (∃ r, y.host = .boot false r ∧ y.block.cyc = .idle)) ∧
      y'.block.cyc = .armed) ∧
    (m ≠ .hostStart → (∀ a b c, m ≠ .tc a b c) → m ≠ .hostArm → y'.block.cyc = y.block.cyc)

/-- R106, log 11: every wait can end: from every state the protocol reaches, there are
moves after which the host has finished a cycle and is about to start the next. -/
def Obligations.EveryWaitCanEnd : Prop :=
  ∀ (σ : Strategy) (ms : List Move) (y : System), System.run ms (System.initial σ) = some y →
    ∃ ms' y', System.run ms' y = some y' ∧ y'.host = .start ∧ y'.cycle.length = 3

/-- R95, log 11: if the converter never presents `READY`, the host never leaves its boot phase, whatever else happens: no
cycle is ever started. -/
def Obligations.WithoutReadyTheHostWaitsForEver : Prop :=
  ∀ (σ : Strategy) (ms : List Move) (y : System), Move.ready ∉ ms → System.run ms (System.initial σ) = some y →
    y.block.go = false ∧ ∃ a, y.host = .boot a false

/-- R124, log 11: if the enabled notification and the strap name different strategies, `CS` is never set and the first wait
never ends. -/
def Obligations.StrapMismatchNeverCompletes : Prop :=
  ∀ (σ ν : Strategy) (ms : List Move) (y : System), σ ≠ ν → System.run ms (System.initialWith σ ν) = some y →
    y.block.cs = false ∧ y.block.sb = ⟨0#12, 0#12, 0#12⟩ ∧ y.host ≠ .consume ∧ y.host ≠ .clear ∧ y.host ≠ .rearm

/-- R106, log 11: in every endless run of the protocol in which the host goes on. The wait for the gate ends if and only
if `READY` is presented, and the wait for `done` if and only if the signal is up then or later; and if the neighbours
present each word they owe, every wait ends and cycle after cycle is finished. -/
def Obligations.EveryWaitEndsUnderProgress : Prop :=
  ∀ (σ : Strategy) (y : Nat → System) (m : Nat → Move),
    y 0 = System.initial σ → EndlessRun y m → HostGoesOn m →
    (∀ n a, (y n).host = .boot a false →
      ((∃ k, n ≤ k ∧ (y k).host.waiting = false) ↔ ∃ k, m k = .ready)) ∧
    (∀ n, (y n).host = .waitDone →
      ((∃ k, n ≤ k ∧ (y k).host = .consume) ↔ ∃ k, n ≤ k ∧ (y k).block.cs = true)) ∧
    (NeighboursPresentWhatTheyOwe y m →
      (∀ n, (y n).host.waiting = true → ∃ k, n ≤ k ∧ (y k).host.waiting = false) ∧
      (∀ n, ∃ k, n ≤ k ∧ (y k).host = .start ∧ (y k).cycle.length = 3))
end

