-- ==== Sys2Proof/Laws/Decode.lean ====
section
/-! SUPPORT. The value of a packed word (30_encoding.md R45, R54), and its fields read back (R46). -/

namespace Sys2Proof

/-- Appending a 12-bit lane below `hi` is `hi * 2^12` plus the lane. -/
theorem append_lane_toNat {n : Nat} (hi : BitVec n) (lo : Reading) :
    (hi ++ lo).toNat = hi.toNat * 4096 + lo.toNat := by
  rw [BitVec.toNat_append, Nat.shiftLeft_eq, Nat.mul_comm, ← Nat.two_pow_add_eq_or_of_lt lo.isLt]

/-- The value of a packed word, lane k weighted by `2^(12 k)` (R45, R54). -/
theorem packWord_toNat (op : Opcode) (w2 w1 w0 : Reading) :
    (packWord op w2 w1 w0).toNat = op.toNat * 2 ^ 36 + w2.toNat * 2 ^ 24 + w1.toNat * 2 ^ 12 + w0.toNat := by
  have h0 : (packWord op w2 w1 w0).toNat = (op ++ w2 ++ w1).toNat * 4096 + w0.toNat := append_lane_toNat _ _
  rw [h0, append_lane_toNat (op ++ w2) w1, append_lane_toNat op w2]
  ring

theorem opField_toNat (w : OpWord) : (opField w).toNat = w.toNat / 2 ^ 36 := by
  have h := w.isLt
  simp only [opField, BitVec.extractLsb'_toNat, Nat.shiftRight_eq_div_pow]
  omega

theorem lane2_toNat (w : OpWord) : (lane2 w).toNat = w.toNat / 2 ^ 24 % 4096 := by
  simp only [lane2, BitVec.extractLsb'_toNat, Nat.shiftRight_eq_div_pow]

theorem lane1_toNat (w : OpWord) : (lane1 w).toNat = w.toNat / 2 ^ 12 % 4096 := by
  simp only [lane1, BitVec.extractLsb'_toNat, Nat.shiftRight_eq_div_pow]

theorem lane0_toNat (w : OpWord) : (lane0 w).toNat = w.toNat % 4096 := by
  simp only [lane0, BitVec.extractLsb'_toNat, Nat.shiftRight_eq_div_pow, pow_zero, Nat.div_one]

theorem opField_packWord (op : Opcode) (w2 w1 w0 : Reading) : opField (packWord op w2 w1 w0) = op := by
  apply BitVec.eq_of_toNat_eq
  have := w2.isLt
  have := w1.isLt
  have := w0.isLt
  rw [opField_toNat, packWord_toNat]
  omega

theorem lane2_packWord (op : Opcode) (w2 w1 w0 : Reading) : lane2 (packWord op w2 w1 w0) = w2 := by
  apply BitVec.eq_of_toNat_eq
  have := w2.isLt
  have := w1.isLt
  have := w0.isLt
  rw [lane2_toNat, packWord_toNat]
  omega

theorem lane1_packWord (op : Opcode) (w2 w1 w0 : Reading) : lane1 (packWord op w2 w1 w0) = w1 := by
  apply BitVec.eq_of_toNat_eq
  have := w1.isLt
  have := w0.isLt
  rw [lane1_toNat, packWord_toNat]
  omega

theorem lane0_packWord (op : Opcode) (w2 w1 w0 : Reading) : lane0 (packWord op w2 w1 w0) = w0 := by
  apply BitVec.eq_of_toNat_eq
  have := w0.isLt
  rw [lane0_toNat, packWord_toNat]
  omega

end Sys2Proof
end

