-- ==== Sys2Proof/Laws/State.lean ====
section
/-! SUPPORT. One lemma for each field of each update of the state, true by unfolding, so that no later proof
unfolds a record update. -/

namespace Sys2Proof.Machine

/-! ### `State.quiet` -/

@[simp] theorem State.quiet_sb (s : State) : s.quiet.sb = s.sb := rfl
@[simp] theorem State.quiet_ci (s : State) : s.quiet.ci = s.ci := rfl
@[simp] theorem State.quiet_cs (s : State) : s.quiet.cs = s.cs := rfl
@[simp] theorem State.quiet_cyc (s : State) : s.quiet.cyc = s.cyc := rfl
@[simp] theorem State.quiet_go (s : State) : s.quiet.go = s.go := rfl
@[simp] theorem State.quiet_strategy (s : State) : s.quiet.strategy = s.strategy := rfl
@[simp] theorem State.quiet_port (s : State) : s.quiet.port = s.port := rfl
@[simp] theorem State.quiet_pulses (s : State) : s.quiet.pulses = Pulses.quiet := rfl

/-! ### `State.raiseStart` -/

@[simp] theorem State.raiseStart_sb (s : State) : s.raiseStart.sb = s.sb := rfl
@[simp] theorem State.raiseStart_ci (s : State) : s.raiseStart.ci = s.ci := rfl
@[simp] theorem State.raiseStart_cs (s : State) : s.raiseStart.cs = s.cs := rfl
@[simp] theorem State.raiseStart_cyc (s : State) : s.raiseStart.cyc = s.cyc := rfl
@[simp] theorem State.raiseStart_go (s : State) : s.raiseStart.go = s.go := rfl
@[simp] theorem State.raiseStart_strategy (s : State) : s.raiseStart.strategy = s.strategy := rfl
@[simp] theorem State.raiseStart_port (s : State) : s.raiseStart.port = s.port := rfl
@[simp] theorem State.raiseStart_pulses (s : State) : s.raiseStart.pulses = { s.pulses with startPulse := true } := rfl

/-! ### `State.store` -/

@[simp] theorem State.store_sb (i : Channel) (v : Reading) (s : State) : (s.store i v).sb = s.sb.write i v := rfl
@[simp] theorem State.store_ci (i : Channel) (v : Reading) (s : State) : (s.store i v).ci = s.ci := rfl
@[simp] theorem State.store_cs (i : Channel) (v : Reading) (s : State) : (s.store i v).cs = s.cs := rfl
@[simp] theorem State.store_cyc (i : Channel) (v : Reading) (s : State) : (s.store i v).cyc = s.cyc := rfl
@[simp] theorem State.store_go (i : Channel) (v : Reading) (s : State) : (s.store i v).go = s.go := rfl
@[simp] theorem State.store_strategy (i : Channel) (v : Reading) (s : State) : (s.store i v).strategy = s.strategy := rfl
@[simp] theorem State.store_port (i : Channel) (v : Reading) (s : State) : (s.store i v).port = s.port := rfl
@[simp] theorem State.store_pulses (i : Channel) (v : Reading) (s : State) : (s.store i v).pulses = { s.pulses with we := s.pulses.we ||| i.enable } := rfl

/-! ### `State.storeBlock` -/

@[simp] theorem State.storeBlock_sb (a b c : Reading) (s : State) : (s.storeBlock a b c).sb = ⟨a, b, c⟩ := rfl
@[simp] theorem State.storeBlock_ci (a b c : Reading) (s : State) : (s.storeBlock a b c).ci = s.ci := rfl
@[simp] theorem State.storeBlock_cs (a b c : Reading) (s : State) : (s.storeBlock a b c).cs = s.cs := rfl
@[simp] theorem State.storeBlock_cyc (a b c : Reading) (s : State) : (s.storeBlock a b c).cyc = s.cyc := rfl
@[simp] theorem State.storeBlock_go (a b c : Reading) (s : State) : (s.storeBlock a b c).go = s.go := rfl
@[simp] theorem State.storeBlock_strategy (a b c : Reading) (s : State) : (s.storeBlock a b c).strategy = s.strategy := rfl
@[simp] theorem State.storeBlock_port (a b c : Reading) (s : State) : (s.storeBlock a b c).port = s.port := rfl
@[simp] theorem State.storeBlock_pulses (a b c : Reading) (s : State) : (s.storeBlock a b c).pulses = { s.pulses with we := s.pulses.we ||| 0b001#3 ||| 0b010#3 ||| 0b100#3 } := rfl

/-! ### `State.setCompletion` -/

@[simp] theorem State.setCompletion_sb (s : State) : s.setCompletion.sb = s.sb := rfl
@[simp] theorem State.setCompletion_ci (s : State) : s.setCompletion.ci = s.ci := rfl
@[simp] theorem State.setCompletion_cs (s : State) : s.setCompletion.cs = true := rfl
@[simp] theorem State.setCompletion_cyc (s : State) : s.setCompletion.cyc = s.cyc := rfl
@[simp] theorem State.setCompletion_go (s : State) : s.setCompletion.go = s.go := rfl
@[simp] theorem State.setCompletion_strategy (s : State) : s.setCompletion.strategy = s.strategy := rfl
@[simp] theorem State.setCompletion_port (s : State) : s.setCompletion.port = s.port := rfl
@[simp] theorem State.setCompletion_pulses (s : State) : s.setCompletion.pulses = { s.pulses with doneRise := !s.cs } := rfl

/-! ### `State.clearCompletion` -/

@[simp] theorem State.clearCompletion_sb (s : State) : s.clearCompletion.sb = s.sb := rfl
@[simp] theorem State.clearCompletion_ci (s : State) : s.clearCompletion.ci = s.ci := rfl
@[simp] theorem State.clearCompletion_cs (s : State) : s.clearCompletion.cs = false := rfl
@[simp] theorem State.clearCompletion_cyc (s : State) : s.clearCompletion.cyc = s.cyc := rfl
@[simp] theorem State.clearCompletion_go (s : State) : s.clearCompletion.go = s.go := rfl
@[simp] theorem State.clearCompletion_strategy (s : State) : s.clearCompletion.strategy = s.strategy := rfl
@[simp] theorem State.clearCompletion_port (s : State) : s.clearCompletion.port = s.port := rfl
@[simp] theorem State.clearCompletion_pulses (s : State) : s.clearCompletion.pulses = s.pulses := rfl

/-! ### `State.advanceChannel` -/

@[simp] theorem State.advanceChannel_sb (s : State) : s.advanceChannel.sb = s.sb := rfl
@[simp] theorem State.advanceChannel_ci (s : State) : s.advanceChannel.ci = s.ci.succ := rfl
@[simp] theorem State.advanceChannel_cs (s : State) : s.advanceChannel.cs = s.cs := rfl
@[simp] theorem State.advanceChannel_cyc (s : State) : s.advanceChannel.cyc = s.cyc := rfl
@[simp] theorem State.advanceChannel_go (s : State) : s.advanceChannel.go = s.go := rfl
@[simp] theorem State.advanceChannel_strategy (s : State) : s.advanceChannel.strategy = s.strategy := rfl
@[simp] theorem State.advanceChannel_port (s : State) : s.advanceChannel.port = s.port := rfl
@[simp] theorem State.advanceChannel_pulses (s : State) : s.advanceChannel.pulses = s.pulses := rfl

/-! ### `State.setCycle` -/

@[simp] theorem State.setCycle_sb (v : CycleState) (s : State) : (s.setCycle v).sb = s.sb := rfl
@[simp] theorem State.setCycle_ci (v : CycleState) (s : State) : (s.setCycle v).ci = s.ci := rfl
@[simp] theorem State.setCycle_cs (v : CycleState) (s : State) : (s.setCycle v).cs = s.cs := rfl
@[simp] theorem State.setCycle_cyc (v : CycleState) (s : State) : (s.setCycle v).cyc = v := rfl
@[simp] theorem State.setCycle_go (v : CycleState) (s : State) : (s.setCycle v).go = s.go := rfl
@[simp] theorem State.setCycle_strategy (v : CycleState) (s : State) : (s.setCycle v).strategy = s.strategy := rfl
@[simp] theorem State.setCycle_port (v : CycleState) (s : State) : (s.setCycle v).port = s.port := rfl
@[simp] theorem State.setCycle_pulses (v : CycleState) (s : State) : (s.setCycle v).pulses = s.pulses := rfl

/-! ### `State.openGate` -/

@[simp] theorem State.openGate_sb (s : State) : s.openGate.sb = s.sb := rfl
@[simp] theorem State.openGate_ci (s : State) : s.openGate.ci = s.ci := rfl
@[simp] theorem State.openGate_cs (s : State) : s.openGate.cs = s.cs := rfl
@[simp] theorem State.openGate_cyc (s : State) : s.openGate.cyc = s.cyc := rfl
@[simp] theorem State.openGate_go (s : State) : s.openGate.go = true := rfl
@[simp] theorem State.openGate_strategy (s : State) : s.openGate.strategy = s.strategy := rfl
@[simp] theorem State.openGate_port (s : State) : s.openGate.port = s.port := rfl
@[simp] theorem State.openGate_pulses (s : State) : s.openGate.pulses = s.pulses := rfl

/-! ### `State.ignoreReserved` -/

@[simp] theorem State.ignoreReserved_sb (s : State) : s.ignoreReserved.sb = s.sb := rfl
@[simp] theorem State.ignoreReserved_ci (s : State) : s.ignoreReserved.ci = s.ci := rfl
@[simp] theorem State.ignoreReserved_cs (s : State) : s.ignoreReserved.cs = s.cs := rfl
@[simp] theorem State.ignoreReserved_cyc (s : State) : s.ignoreReserved.cyc = s.cyc := rfl
@[simp] theorem State.ignoreReserved_go (s : State) : s.ignoreReserved.go = s.go := rfl
@[simp] theorem State.ignoreReserved_strategy (s : State) : s.ignoreReserved.strategy = s.strategy := rfl
@[simp] theorem State.ignoreReserved_port (s : State) : s.ignoreReserved.port = s.port := rfl
@[simp] theorem State.ignoreReserved_pulses (s : State) : s.ignoreReserved.pulses = Pulses.quiet := rfl

/-! ### `State.consume` -/

@[simp] theorem State.consume_sb (s : State) : s.consume.sb = s.sb := rfl
@[simp] theorem State.consume_ci (s : State) : s.consume.ci = s.ci := rfl
@[simp] theorem State.consume_cs (s : State) : s.consume.cs = s.cs := rfl
@[simp] theorem State.consume_cyc (s : State) : s.consume.cyc = s.cyc := rfl
@[simp] theorem State.consume_go (s : State) : s.consume.go = s.go := rfl
@[simp] theorem State.consume_strategy (s : State) : s.consume.strategy = s.strategy := rfl
@[simp] theorem State.consume_port (s : State) : s.consume.port = s.port.tail := rfl
@[simp] theorem State.consume_pulses (s : State) : s.consume.pulses = s.pulses := rfl

/-! ### `State.present` -/

@[simp] theorem State.present_sb (w : OpWord) (s : State) : (s.present w).sb = s.sb := rfl
@[simp] theorem State.present_ci (w : OpWord) (s : State) : (s.present w).ci = s.ci := rfl
@[simp] theorem State.present_cs (w : OpWord) (s : State) : (s.present w).cs = s.cs := rfl
@[simp] theorem State.present_cyc (w : OpWord) (s : State) : (s.present w).cyc = s.cyc := rfl
@[simp] theorem State.present_go (w : OpWord) (s : State) : (s.present w).go = s.go := rfl
@[simp] theorem State.present_strategy (w : OpWord) (s : State) : (s.present w).strategy = s.strategy := rfl
@[simp] theorem State.present_port (w : OpWord) (s : State) : (s.present w).port = w :: s.port := rfl
@[simp] theorem State.present_pulses (w : OpWord) (s : State) : (s.present w).pulses = s.pulses := rfl

/-! ### The reset state -/

@[simp] theorem State.resetWith_sb (σ : Strategy) : (State.resetWith σ).sb = ⟨0#12, 0#12, 0#12⟩ := rfl
@[simp] theorem State.resetWith_ci (σ : Strategy) : (State.resetWith σ).ci = .ch0 := rfl
@[simp] theorem State.resetWith_cs (σ : Strategy) : (State.resetWith σ).cs = false := rfl
@[simp] theorem State.resetWith_cyc (σ : Strategy) : (State.resetWith σ).cyc = .idle := rfl
@[simp] theorem State.resetWith_go (σ : Strategy) : (State.resetWith σ).go = false := rfl
@[simp] theorem State.resetWith_strategy (σ : Strategy) : (State.resetWith σ).strategy = σ := rfl
@[simp] theorem State.resetWith_pulses (σ : Strategy) : (State.resetWith σ).pulses = Pulses.quiet := rfl
@[simp] theorem State.resetWith_port (σ : Strategy) : (State.resetWith σ).port = [] := rfl

end Sys2Proof.Machine
end

