-- ==== Sys2Proof/Laws/Ops.lean ====
section
/-! SUPPORT. What each shared operation can do, said once: the slots, the channel successor, the port, and the
two equations that let a proof about `step`, `after` or `runOps` cite a meaning instead of unfolding it. -/

namespace Sys2Proof.Machine

/-! ### Slots -/

@[simp] theorem SampleBuffer.read_write_same (b : SampleBuffer) (i : Channel) (v : Reading) :
    (b.write i v).read i = v := by
  cases i <;> rfl

theorem SampleBuffer.read_write_other (b : SampleBuffer) {i k : Channel} (v : Reading) (h : k ≠ i) :
    (b.write i v).read k = b.read k := by
  cases i <;> cases k <;> first | rfl | exact absurd rfl h

/-- A buffer is its three slots. -/
theorem SampleBuffer.ext_read {b b' : SampleBuffer} (h : ∀ k, b.read k = b'.read k) : b = b' := by
  cases b
  cases b'
  have h0 := h .ch0
  have h1 := h .ch1
  have h2 := h .ch2
  simp only [SampleBuffer.read] at h0 h1 h2
  rw [h0, h1, h2]

/-- A store reads back in its slot and leaves the others alone. -/
theorem State.slot_store (i k : Channel) (v : Reading) (s : State) :
    (s.store i v).slot k = if k = i then v else s.slot k := by
  cases i <;> cases k <;> rfl

/-- After a block store the slots are the lanes. -/
theorem State.slot_storeBlock (a b c : Reading) (s : State) :
    (s.storeBlock a b c).slot .ch0 = a ∧ (s.storeBlock a b c).slot .ch1 = b ∧ (s.storeBlock a b c).slot .ch2 = c :=
  ⟨rfl, rfl, rfl⟩

/-! ### The channel successor -/

@[simp] theorem Channel.succ_succ_succ (c : Channel) : c.succ.succ.succ = c := by
  cases c <;> rfl

theorem Channel.succ_index (c : Channel) : c.succ.index = (c.index + 1) % 3 := by
  cases c <;> rfl

/-! ### The port -/

@[simp] theorem State.presented_present (w : OpWord) (s : State) : (s.present w).presented = w := rfl

@[simp] theorem State.consume_present (w : OpWord) (s : State) : (s.present w).consume = s := rfl

/-! ### Sequences -/

/-- What a step answers decides `after`. -/
theorem after_eq {i : Instr} {s t : State} (h : exec i s = .next t) : after i s = t := by
  simp [after, h, nextOf]

@[simp] theorem runOps_nil (s : State) : runOps [] s = s := rfl

@[simp] theorem runOps_cons (i : Instr) (is : List Instr) (s : State) :
    runOps (i :: is) s = runOps is (after i s) := rfl

theorem runOps_append (is js : List Instr) (s : State) : runOps (is ++ js) s = runOps js (runOps is s) := by
  induction is generalizing s with
  | nil => rfl
  | cons i is ih => exact ih (after i s)

end Sys2Proof.Machine
end

