-- ==== Sys2Proof/Laws/PerInstr.lean ====
section
/-! SUPPORT. Families of statements about every operation, one lemma for each constructor of `Instr`. The family
`EncodeCarriesOpcode` says that the word of an operation carries the operation's own opcode, and that the
opcode is none of the reserved ones (30_encoding.md R47, R50). -/

namespace Sys2Proof.Laws

/-- The word of `i` has `i`'s opcode in bits 39:36, and it is 0x0 to 0x6 (R47). -/
def EncodeCarriesOpcode.Statement (i : Instr) : Prop :=
  opField (encode i) = opcodeOf i ∧ (opcodeOf i).toNat < 7

theorem EncodeCarriesOpcode.nop : EncodeCarriesOpcode.Statement .nop := ⟨opField_packWord _ _ _ _, by decide⟩

theorem EncodeCarriesOpcode.ready : EncodeCarriesOpcode.Statement .ready := ⟨opField_packWord _ _ _ _, by decide⟩

theorem EncodeCarriesOpcode.start : EncodeCarriesOpcode.Statement .start := ⟨opField_packWord _ _ _ _, by decide⟩

theorem EncodeCarriesOpcode.eoc (w0 : Reading) : EncodeCarriesOpcode.Statement (.eoc w0) :=
  ⟨opField_packWord _ _ _ _, by simp [opcodeOf]⟩

theorem EncodeCarriesOpcode.arm : EncodeCarriesOpcode.Statement .arm := ⟨opField_packWord _ _ _ _, by decide⟩

theorem EncodeCarriesOpcode.tc (w0 w1 w2 : Reading) : EncodeCarriesOpcode.Statement (.tc w0 w1 w2) :=
  ⟨opField_packWord _ _ _ _, by simp [opcodeOf]⟩

theorem EncodeCarriesOpcode.clr : EncodeCarriesOpcode.Statement .clr := ⟨opField_packWord _ _ _ _, by decide⟩

end Sys2Proof.Laws
end

