-- ==== Sys2Proof/Tests/Slice0.lean ====
section
/-! SUPPORT. Tests. Expected values are the spec's own: "V<n>", "E<n>", "P<n>" and the decode and STATUS vectors are of
95_test_vectors.md, words are written out from 30_encoding.md R45 and R47. The second half shows, for each statement
with hypotheses, a concrete state and operands that meet them. -/

namespace Sys2Proof.Machine

/-- A state with quiet pulses and no word waiting, columns in the order of 95_test_vectors.md. -/
def vec (σ : Strategy) (b0 b1 b2 : Reading) (ci : Channel) (cs : Bool) (cyc : CycleState) (go : Bool) : State where
  sb := ⟨b0, b1, b2⟩
  ci := ci
  cs := cs
  cyc := cyc
  go := go
  strategy := σ
  pulses := Pulses.quiet
  port := []

/-- The same state as the outcome of a step with these pulses. -/
def out (s : State) (we : BitVec 3) (startPulse doneRise : Bool) : Option State :=
  some { s with pulses := { startPulse := startPulse, doneRise := doneRise, we := we } }

/-- One step on one presented word. -/
def stepOn (s : State) (w : OpWord) : Option State := nextOf (step (s.present w))

/-! ## Checks refuse ill-formed terms -/

theorem test_lane_4096_refused : laneInRange 4096 = false ∧ laneInRange 4095 = true := by decide

theorem test_wf_holds : (Instr.eoc 4095#12).wf = true ∧ (Instr.tc 0#12 4095#12 1#12).wf = true := by decide

theorem test_eoc_not_live_in_B : (Instr.eoc 5#12).liveIn .B = false ∧ (Instr.eoc 5#12).liveIn .A = true := by decide

theorem test_arm_tc_not_live_in_A :
    Instr.arm.liveIn .A = false ∧ (Instr.tc 1#12 2#12 3#12).liveIn .A = false ∧ Instr.arm.liveIn .B = true := by decide

theorem test_assembler_refuses_4096 :
    AsmLine.inRange (.eoc 4096) = false ∧ AsmLine.inRange (.tc 0 4096 0) = false ∧
    AsmLine.inRange (.onConversionComplete 4096) = false ∧ AsmLine.inRange (.onTransferComplete 4096 0 0) = false ∧
    AsmLine.inRange (.word (2 ^ 40)) = false := by decide

/-! ## Decoding words written out from the encoding -/

theorem test_decode_nop : decode 0b0000000000000000000000000000000000000000#40 = .ok .nop := by rfl

theorem test_decode_ready : decode 0b0001000000000000000000000000000000000000#40 = .ok .ready := by rfl

theorem test_decode_start : decode 0b0010000000000000000000000000000000000000#40 = .ok .start := by rfl

/-- w2 = 0x555, w1 = 0xAAA, w0 = 0xFFF: the upper lanes are ignored. -/
theorem test_decode_eoc : decode 0b0011010101010101101010101010111111111111#40 = .ok (.eoc 4095#12) := by rfl

theorem test_decode_arm : decode 0b0100000000000000000000000000000000000000#40 = .ok .arm := by rfl

/-- w2 = 300, w1 = 200, w0 = 100. -/
theorem test_decode_tc :
    decode 0b0101000100101100000011001000000001100100#40 = .ok (.tc 100#12 200#12 300#12) := by rfl

theorem test_decode_clr : decode 0b0110000000000000000000000000000000000000#40 = .ok .clr := by rfl

theorem test_decode_reserved :
    decode 0x7000000000#40 = .error (.reservedOpcode 0x7#4) ∧
    decode 0xF123456789#40 = .error (.reservedOpcode 0xF#4) := ⟨rfl, rfl⟩

theorem test_encode_tc : encode (.tc 100#12 200#12 300#12) = 0x512C0C8064#40 := by decide

theorem test_table_word : decodeTableWord 40 0x5001000FFF = some (.tc 4095#12 0#12 1#12) ∧
    decodeTableWord 40 0x7000000000 = none := ⟨rfl, rfl⟩

theorem test_with_fetch_word_runs_it :
    nextOf (step (State.reset.withFetchWord 40 0x3000000064)) = nextOf (exec (.eoc 100#12) State.reset) := by decide

/-! ## One step per vector -/

/-- V6. -/
theorem test_start_from_armed :
    stepOn (vec .B 0 0 0 .ch0 false .armed true) 0x2000000000#40 =
      out (vec .B 0 0 0 .ch0 false .converting true) 0b000#3 true false := by decide

/-- V11. -/
theorem test_start_dropped :
    stepOn (vec .B 0 0 0 .ch0 false .converting false) 0x2000000000#40 =
      out (vec .B 0 0 0 .ch0 false .converting false) 0b000#3 false false := by decide

/-- V16. -/
theorem test_clr_leaves_channel :
    stepOn (vec .A 999 200 300 .ch1 true .idle true) 0x6000000000#40 =
      out (vec .A 999 200 300 .ch1 false .idle true) 0b000#3 false false := by decide

/-- V21. -/
theorem test_clr_ignores_lanes :
    stepOn (vec .A 0 0 0 .ch0 true .idle false) 0x6003002001#40 =
      out (vec .A 0 0 0 .ch0 false .idle false) 0b000#3 false false := by decide

/-- V24. -/
theorem test_eoc_third :
    stepOn (vec .A 100 200 0 .ch2 false .idle true) 0x300000012C#40 =
      out (vec .A 100 200 300 .ch0 true .idle true) 0b100#3 false true := by decide

/-- V30: the upper lanes all ones. -/
theorem test_eoc_uses_lane0 :
    stepOn (vec .A 0 0 0 .ch0 false .idle false) 0x3FFFFFF123#40 =
      out (vec .A 291 0 0 .ch1 false .idle false) 0b001#3 false false := by decide

/-- V36. -/
theorem test_arm_from_converting :
    stepOn (vec .B 0 0 0 .ch0 false .converting true) 0x4000000000#40 =
      out (vec .B 0 0 0 .ch0 false .armed true) 0b000#3 false false := by decide

/-- V42. -/
theorem test_arm_masked_in_A :
    stepOn (vec .A 1 2 3 .ch2 true .idle true) 0x4000000000#40 =
      out (vec .A 1 2 3 .ch2 true .idle true) 0b000#3 false false := by decide

/-- V44. -/
theorem test_tc_accepted :
    stepOn (vec .B 100 200 300 .ch0 false .converting true) 0x5001000FFF#40 =
      out (vec .B 4095 0 1 .ch0 true .complete true) 0b111#3 false true := by decide

/-- V48. -/
theorem test_tc_refused_in_complete :
    stepOn (vec .B 100 200 300 .ch0 false .complete true) 0x5009008007#40 =
      out (vec .B 100 200 300 .ch0 false .complete true) 0b000#3 false false := by decide

/-- V60. -/
theorem test_ready_opens_gate :
    stepOn (vec .A 0 0 0 .ch0 false .idle false) 0x1123DEFABC#40 =
      out (vec .A 0 0 0 .ch0 false .idle true) 0b000#3 false false := by decide

/-- V64. -/
theorem test_nop_ignores_lanes :
    stepOn (vec .A 1 2 3 .ch1 true .idle true) 0x0FFFFFFFFF#40 =
      out (vec .A 1 2 3 .ch1 true .idle true) 0b000#3 false false := by decide

/-- V74. -/
theorem test_reserved_has_no_effect :
    stepOn (vec .B 1 2 3 .ch0 false .converting true) 0xFFFFFFFFFF#40 =
      out (vec .B 1 2 3 .ch0 false .converting true) 0b000#3 false false := by decide

/-! ## Status word and assembler text -/

/-- The status-word vectors, one for each field. -/
theorem test_status_vectors :
    (vec .A 0 0 0 .ch2 false .idle true).status = 0x0A#7 ∧ (vec .A 0 0 0 .ch1 true .idle true).status = 0x07#7 ∧
    (vec .B 0 0 0 .ch0 true .complete true).status = 0x73#7 ∧
    (vec .B 0 0 0 .ch0 false .converting true).status = 0x62#7 := by decide

/-- `TC 1, 0x10, 3 ; c`. -/
theorem test_read_tc_line :
    readLine ['T', 'C', ' ', '1', ',', ' ', '0', 'x', '1', '0', ',', ' ', '3', ' ', ';', ' ', 'c'] =
      some (.tc 1 16 3) := by decide

theorem test_read_heading_and_plain :
    readLine ['S', 'T', 'R', 'A', 'T', 'E', 'G', 'Y', ' ', 'B'] = some (.heading .B) ∧
    readLine ['a', 'r', 'm'] = some .armCall ∧ readLine [';', 'x'] = some .blank ∧
    readLine ['E', 'O', 'C'] = none := by decide

/-- The model's choices of log 15: a comment line before the heading and after it, a second heading, no heading. -/
theorem test_assemble_headings :
    assembleProgram [.blank, .heading .B, .blank, .heading .A, .consumeAndReset] =
      some (.B, [0x6000000000#40, 0x4000000000#40]) ∧ assembleProgram [.blank, .nop, .heading .A] = none := by decide

/-- P2's first lines: `STRATEGY B`, `ARM`, `TC 100, 200, 300`, `consumeAndReset`. -/
theorem test_assemble_program :
    assembleProgram [.heading .B, .arm, .waitReady, .tc 100 200 300, .consumeAndReset] =
      some (.B, [0x4000000000#40, 0x512C0C8064#40, 0x6000000000#40, 0x4000000000#40]) := by decide

/-! ## Hypotheses that something meets -/

/-- A Strategy A state in the middle of a cycle. -/
def midA : State := vec .A 7 8 9 .ch1 false .idle true

/-- A Strategy B state with the copy armed. -/
def armedB : State := vec .B 7 8 9 .ch0 false .armed true

/-- A Strategy B state with a block on its way. -/
def convB : State := vec .B 7 8 9 .ch0 false .converting true

theorem witness_StepRunsThePresentedOperation :
    ({ midA with port := [0x6000000000#40] } : State).port = 0x6000000000#40 :: [] ∧
    decode 0x6000000000#40 = .ok .clr := ⟨rfl, rfl⟩

theorem witness_EmptyPortStepsAsNop : midA.port = [] := rfl

theorem witness_ReservedWordChangesNothing :
    7 ≤ (opField 0x7000000000#40).toNat ∧ 7 ≤ (opField 0xFFFFFFFFFF#40).toNat := by decide

theorem witness_UnusedLanesHaveNoEffect :
    opField 0x3FFFFFF123#40 = opField 0x3000000123#40 ∧ lane0 0x3FFFFFF123#40 = lane0 0x3000000123#40 ∧
    (0x3FFFFFF123#40 : OpWord) ≠ 0x3000000123#40 := by decide

theorem witness_AssembledWordsHaveTheirValues : (4095 : Nat) ≤ 4095 ∧ (4095 : Nat) < 4096 := by decide

theorem witness_FieldsMakeUpTheWord :
    decode 0x3FFFFFF123#40 = .ok (.eoc 0x123#12) ∧ decode 0x5003002001#40 = .ok (.tc 1#12 2#12 3#12) := ⟨rfl, rfl⟩

theorem witness_StartTriggersThroughTheGate :
    (vec .A 0 0 0 .ch0 false .idle false).go = false ∧
    (armedB.go = true ∧ armedB.strategy = .B ∧ armedB.cyc = .armed) ∧
    (midA.go = true ∧ midA.strategy = .A) ∧ (convB.go = true ∧ convB.cyc ≠ .armed) := by decide

theorem witness_EocFollowsTheTransitionTable :
    ((vec .A 0 0 0 .ch0 true .idle false).strategy = .A ∧ (vec .A 0 0 0 .ch0 true .idle false).ci = .ch0) ∧
    (midA.strategy = .A ∧ midA.ci = .ch1) ∧
    ((vec .A 0 0 0 .ch2 true .idle false).strategy = .A ∧ (vec .A 0 0 0 .ch2 true .idle false).ci = .ch2) ∧
    convB.strategy = .B := by decide

theorem witness_ArmArmsFromEveryCycleState : convB.strategy = .B ∧ midA.strategy = .A := by decide

theorem witness_TcIsAcceptedInConvertingOnly :
    (convB.strategy = .B ∧ convB.cyc = .converting) ∧ midA.strategy = .A ∧ armedB.cyc ≠ .converting := by decide

theorem witness_DeadStrategyOperationsAreMasked :
    (Instr.eoc 1#12).liveIn convB.strategy = false ∧ Instr.arm.liveIn midA.strategy = false ∧
    (Instr.tc 1#12 2#12 3#12).liveIn midA.strategy = false := by decide

theorem witness_WriteEnablesFollowTheRule :
    (decode (midA.present 0x3000000005#40).presented = .ok (.eoc 5#12) ∧ midA.strategy = .A) ∧
    (decode (convB.present 0x5003002001#40).presented = .ok (.tc 1#12 2#12 3#12) ∧ convB.cyc = .converting) ∧
    stepOn midA 0x3000000005#40 ≠ none ∧ stepOn convB 0x5003002001#40 ≠ none ∧ stepOn convB 0x0000000000#40 ≠ none :=
  ⟨⟨rfl, rfl⟩, ⟨rfl, rfl⟩, by decide, by decide, by decide⟩

theorem witness_OnlyLiveEventsWriteTheBuffer :
    step (armedB.present 0x5003002001#40) = .next armedB ∧
    (∀ v, decode (armedB.present 0x5003002001#40).presented = .ok (.eoc v) → armedB.strategy = .B) ∧
    (∀ a b c, decode (armedB.present 0x5003002001#40).presented = .ok (.tc a b c) →
      armedB.strategy = .A ∨ armedB.cyc ≠ .converting) :=
  ⟨rfl, fun _ _ => rfl, fun _ _ _ _ => .inr (by decide)⟩

theorem witness_SlotsChangeThroughTheirWriteEnable : stepOn convB 0x5003002001#40 ≠ none := by decide

theorem witness_CompletionLatchFollowsItsEquation :
    setCond (.eoc 1#12) (vec .A 0 0 0 .ch2 false .idle true) = true ∧ setCond (.tc 1#12 2#12 3#12) convB = true ∧
    (setCond .clr midA = false ∧ clrCond .clr = true) ∧ (setCond .nop midA = false ∧ clrCond .nop = false) ∧
    nextOf (exec (.eoc 1#12) midA) ≠ none := by decide

theorem witness_StartPulseComesFromStartAlone : stepOn midA 0x2000000000#40 ≠ none := by decide

theorem witness_BufferIsWrittenByTheStepThatSignals :
    (nextOf (exec (.eoc 1#12) (vec .A 7 8 9 .ch2 false .idle true))).map (fun t => t.levels.done) = some true ∧
    (nextOf (exec (.tc 1#12 2#12 3#12) convB)).map (fun t => t.levels.done) = some true ∧
    convB.levels.done = false := by decide

theorem witness_NativeWordIsRightAligned : (12 : Nat) ≤ 12 := le_refl _

theorem witness_BlockInvariantIsKept : BlockInv midA ∧ BlockInv convB ∧ stepOn convB 0x5003002001#40 ≠ none :=
  ⟨by simp [BlockInv, midA, vec], by simp [BlockInv, convB, vec], by decide⟩

theorem witness_ResetIsTheOnlyRecovery : stepOn convB 0x5003002001#40 ≠ none ∧ convB.cyc ≠ .idle ∧ convB.go = true := by
  decide

theorem witness_ThreeEventsFillTheBuffer :
    (vec .A 7 8 9 .ch0 false .idle true).strategy = .A ∧ (vec .A 7 8 9 .ch0 false .idle true).ci = .ch0 ∧
    (∀ v, Instr.eoc v ∉ [Instr.clr, Instr.start]) ∧ (∀ v, Instr.eoc v ∉ [Instr.nop]) ∧
    Instr.clr ∉ [Instr.nop] := by simp [vec]

theorem witness_StrayEventsCorruptAndAreNotCounted :
    (vec .A 7 8 9 .ch0 true .idle true).strategy = .A ∧ (vec .A 7 8 9 .ch0 true .idle true).ci = .ch0 ∧
    (vec .A 7 8 9 .ch0 true .idle true).cs = true := by decide

theorem witness_MisalignmentPersists : midA.strategy = .A ∧ midA.ci = .ch1 := by decide

theorem witness_BlockTransferIsAtomic :
    armedB.strategy = .B ∧ armedB.cyc = .armed ∧ armedB.go = true ∧ Instr.arm ∉ [Instr.nop, Instr.start] ∧
    (∀ x y z, Instr.tc x y z ∉ [Instr.nop, Instr.start]) ∧ [Instr.start] <+: Instr.start :: [Instr.nop, Instr.start] := by
  refine ⟨by decide, by decide, by decide, by decide, by simp, ?_⟩
  exact ⟨[.nop, .start], rfl⟩

theorem witness_OneCompletionPerArming :
    armedB.strategy = .B ∧ Instr.arm ∉ [Instr.start, Instr.tc 1#12 2#12 3#12] ∧
    setCount [.start, .tc 1#12 2#12 3#12] armedB = 1 ∧ (vec .B 7 8 9 .ch0 false .complete true).cyc = .complete := by decide

theorem witness_OnlyPathToCompletionInStrategyB :
    (runOps [.arm, .ready, .start, .tc 1#12 2#12 3#12] (State.resetWith .B)).cs = true := by decide

theorem witness_ClosedGateBlocksEveryCycle :
    Instr.ready ∉ [Instr.arm, Instr.start, Instr.tc 1#12 2#12 3#12] ∧
    (∀ v, Instr.eoc v ∉ [Instr.arm, Instr.start, Instr.tc 1#12 2#12 3#12]) := by simp

theorem witness_GateBlocksNothingButStart :
    Instr.ready ≠ Instr.start ∧ Instr.arm ≠ Instr.start ∧ nextOf (exec .arm armedB) ≠ none ∧
    nextOf (exec .ready armedB) ≠ none := by decide

theorem witness_DroppedStartIsNotReplayed :
    (vec .B 7 8 9 .ch0 false .armed false).go = false ∧ Instr.start ∉ [Instr.ready, Instr.nop] ∧
    (vec .B 7 8 9 .ch0 false .armed false).cyc ≠ .converting := by decide

theorem witness_IdleAndCompleteBehaveAlike :
    AlikeButCycle (vec .B 7 8 9 .ch0 true .idle true) (vec .B 7 8 9 .ch0 true .complete true) := by
  simp [AlikeButCycle, CycleAlike, vec]

theorem witness_ReadingsNeverInfluenceControl :
    [Instr.eoc 1#12, .start].map opcodeOf = [Instr.eoc 4095#12, .start].map opcodeOf ∧
    SameControl (vec .A 1 2 3 .ch1 true .idle true) (vec .A 4 5 6 .ch1 true .idle true) := by
  simp [SameControl, vec, opcodeOf]

theorem witness_ClrMeetingAnEventErasesTheCompletion :
    (after (.tc 1#12 2#12 3#12) convB).cs = true ∧ (after (.eoc 1#12) (vec .A 0 0 0 .ch2 false .idle true)).cs = true ∧
    ((none : Option Instr) = none ∨ (none : Option Instr) = some .ready) := by decide

theorem witness_ArmWhileConvertingLosesTheCycle :
    convB.strategy = .B ∧ convB.cyc = .converting ∧ Instr.start ∉ [Instr.tc 1#12 2#12 3#12, .clr] ∧ convB.cs = false := by
  decide

theorem witness_StartWithoutHazardBeginsACycle : hazards .start armedB = [] ∧ hazards .start midA = [] := by decide

/-! ## Runs of the protocol -/

/-- The moves of a whole cycle of Strategy A, from the start of a run. -/
def movesA : List Move :=
  [.ready, .hostPoll, .hostStart, .eoc 1#12, .eoc 2#12, .eoc 3#12, .hostPoll, .hostRead]

/-- The moves of a whole cycle of Strategy B, from the start of a run. -/
def movesB : List Move :=
  [.hostArm, .ready, .hostPoll, .hostStart, .tc 1#12 2#12 3#12, .hostPoll, .hostRead, .hostClear]

/-- Strategy A: the run reaches `CLR`, with the readings read and the signal up. -/
theorem witness_protocol_run_A :
    ((System.run movesA (System.initial .A)).map (fun y => (y.host, y.taken, y.block.cs))) =
      some (.clear, some ⟨1#12, 2#12, 3#12⟩, true) := by decide

/-- Strategy B: the run reaches the re-arming, with the readings read and the signal down. -/
theorem witness_protocol_run_B :
    ((System.run movesB (System.initial .B)).map (fun y => (y.host, y.taken, y.block.cs, y.block.cyc))) =
      some (.rearm, some ⟨1#12, 2#12, 3#12⟩, false, .complete) := by decide

/-- `EveryStartIsEffectiveAndAligned`: both of its moves are made in a run of each strategy. -/
theorem witness_EveryStartIsEffectiveAndAligned :
    (System.run (movesA ++ [.hostClear, .hostStart]) (System.initial .A)).isSome = true ∧
    (System.run (movesB ++ [.hostArm, .hostStart]) (System.initial .B)).isSome = true := by decide

/-- `SignalRisesOncePerCycle`, `HostReadsTheCyclesData`, `CycleStatesComeInOrder`: the last datum of a run of each
strategy raises the edge. -/
theorem witness_SignalRisesOncePerCycle :
    ((System.run (movesA.take 6) (System.initial .A)).map (fun y => (y.host, y.block.pulses.doneRise, y.cycle.length))) =
      some (.waitDone, true, 3) ∧
    ((System.run (movesB.take 5) (System.initial .B)).map (fun y => (y.host, y.block.pulses.doneRise, y.cycle.length))) =
      some (.waitDone, true, 3) := by decide

/-- `CycleStatesComeInOrder`: each of its three moves follows a run of Strategy B. -/
theorem witness_CycleStatesComeInOrder :
    ((System.run (movesB.take 3) (System.initial .B)).bind (System.move .hostStart)).isSome = true ∧
    ((System.run (movesB.take 4) (System.initial .B)).bind (System.move (.tc 1#12 2#12 3#12))).isSome = true ∧
    ((System.run movesB (System.initial .B)).bind (System.move .hostArm)).isSome = true := by decide

theorem witness_ProtocolInvariantIsKept :
    (System.initial .B).Inv ∧ ((System.initial .B).move .ready).isSome = true :=
  ⟨by simp [System.Inv, System.PhaseInv, System.initial, System.initialWith, BlockInv], by decide⟩

/-- `HostReadsTheCyclesData`: a run of Strategy A with `CS = 1`, and the read it then allows. -/
theorem witness_HostReadsTheCyclesData :
    ((System.run (movesA.take 7) (System.initial .A)).map (fun y => (y.block.cs, y.cycle))) =
      some (true, [1#12, 2#12, 3#12]) ∧
    ((System.run (movesA.take 7) (System.initial .A)).bind (System.move .hostRead)).isSome = true := by decide

/-- `EveryWaitCanEnd`: a run of Strategy B that stands in its first wait. -/
theorem witness_EveryWaitCanEnd :
    ((System.run (movesB.take 4) (System.initial .B)).map System.host) = some .waitDone := by decide

/-- One cycle of Strategy A over and over, after `READY` and the poll of `gate`. -/
def endlessMoves : Nat → Move
  | 0 => .ready
  | 1 => .hostPoll
  | n + 2 =>
    match n % 7 with
    | 0 => .hostStart
    | 1 => .eoc 1#12
    | 2 => .eoc 2#12
    | 3 => .eoc 3#12
    | 4 => .hostPoll
    | 5 => .hostRead
    | _ => .hostClear

/-- The states that `endlessMoves` goes through. -/
def endlessStates : Nat → System
  | 0 => System.initial .A
  | n + 1 => ((endlessStates n).move (endlessMoves n)).getD (endlessStates n)

theorem endlessMoves_periodic (n : Nat) : endlessMoves (n + 2 + 7) = endlessMoves (n + 2) := by
  simp [endlessMoves]

/-- From the second cycle on the states repeat. -/
theorem endlessStates_periodic (n : Nat) : endlessStates (n + 9 + 7) = endlessStates (n + 9) := by
  induction n with
  | zero => decide
  | succ n ih =>
    have hs (k : Nat) : endlessStates (k + 1) = ((endlessStates k).move (endlessMoves k)).getD (endlessStates k) := rfl
    rw [show n + 1 + 9 + 7 = n + 9 + 7 + 1 by omega, show n + 1 + 9 = n + 9 + 1 by omega, hs, hs (n + 9), ih,
      show n + 9 + 7 = n + 7 + 2 + 7 by omega, endlessMoves_periodic]

/-- What holds of the states and moves at the places before 16 and depends on them alone holds everywhere. -/
theorem endless_everywhere (p : System → Move → System → Bool)
    (h : ∀ k < 16, p (endlessStates k) (endlessMoves k) (endlessStates (k + 1)) = true) (n : Nat) :
    p (endlessStates n) (endlessMoves n) (endlessStates (n + 1)) = true := by
  induction n using Nat.strong_induction_on with
  | h n ih =>
    by_cases hn : n < 16
    · exact h n hn
    · obtain ⟨k, rfl⟩ : ∃ k, n = k + 9 + 7 := ⟨n - 16, by omega⟩
      have hk := ih (k + 9) (by omega)
      rwa [← endlessStates_periodic k, show k + 9 + 1 = (k + 1) + 9 by omega, ← endlessStates_periodic (k + 1),
        show k + 9 = k + 7 + 2 by omega, ← endlessMoves_periodic,
        show k + 7 + 2 + 7 = k + 9 + 7 by omega, show k + 1 + 9 + 7 = k + 9 + 7 + 1 by omega] at hk

/-- `EveryWaitEndsUnderProgress`: an endless run that meets its premises, with both waits in it. -/
theorem witness_EveryWaitEndsUnderProgress :
    endlessStates 0 = System.initial .A ∧ EndlessRun endlessStates endlessMoves ∧ HostGoesOn endlessMoves ∧
    NeighboursPresentWhatTheyOwe endlessStates endlessMoves ∧
    (endlessStates 0).host = .boot true false ∧ (endlessStates 3).host = .waitDone := by
  refine ⟨rfl, fun n => ?_, fun n => ⟨n * 7 + 2, by omega, ?_⟩, fun n hn => ?_, by decide, by decide⟩
  · exact of_decide_eq_true (endless_everywhere (fun y m z => decide (y.move m = some z)) (by decide) n)
  · simp [endlessMoves, Move.byHost]
  · match n with
    | 0 => exact ⟨0, by omega, rfl⟩
    | n + 1 =>
      have hp : endlessMoves (n * 7 + 3) = .eoc 1#12 := by
        simp [endlessMoves, show n * 7 + 1 = 1 + 7 * n by omega, Nat.add_mul_mod_self_left]
      refine ⟨n * 7 + 3, by omega, ?_⟩
      have hc := endless_everywhere
        (fun _ _ z => decide (z.converter ≠ .notReady) && decide (z.converter ≠ .copying)) (by decide) n
      simp only [Bool.and_eq_true, decide_eq_true_eq] at hc
      rw [hp]
      cases h : (endlessStates (n + 1)).converter <;> simp_all [Converter.owesWord, Converter.PaidBy]

theorem witness_WithoutReadyTheHostWaitsForEver :
    Move.ready ∉ [Move.hostArm, Move.hostPoll] ∧
    (System.run [.hostArm, .hostPoll] (System.initial .B)).isSome = true := by decide

/-- The wrong notification: the first wait is entered and the events are masked. -/
theorem witness_StrapMismatchNeverCompletes :
    Strategy.B ≠ Strategy.A ∧
    ((System.run [.hostArm, .ready, .hostPoll, .hostStart, .eoc 1#12, .eoc 2#12, .eoc 3#12, .hostPoll]
      (System.initialWith .B .A)).map (fun y => (y.host, y.block.cs))) = some (.waitDone, false) := by decide

end Sys2Proof.Machine
end

/-! PROOFS. The state, the completion latch, reset and the outputs (10_state.md). -/

namespace Sys2Proof.Machine

/-! ### What each operation answers, one equation for each case of its rule -/

theorem exec_nop (s : State) : exec .nop s = .next s.quiet := rfl

theorem exec_ready (s : State) : exec .ready s = .next s.quiet.openGate := rfl

theorem exec_clr (s : State) : exec .clr s = .next s.quiet.clearCompletion := rfl

/-- R60: `GO = 0` drops the request; `GO = 1` raises `start_pulse`, and the arbiter moves if it is armed. -/
theorem exec_start (s : State) :
    exec .start s = .next (if s.go = true then
      if s.strategy = .B ∧ s.cyc = .armed then s.quiet.raiseStart.setCycle .converting else s.quiet.raiseStart
      else s.quiet) := rfl

/-- R70: the third event of a cycle stores, counts and sets the latch. -/
theorem exec_eoc_last {s : State} (v : Reading) (hA : s.strategy = .A) (hci : s.ci = .ch2) :
    exec (.eoc v) s = .next ((s.quiet.store s.ci v).advanceChannel).setCompletion := by
  simp [exec, execEoc, State.eocTarget, hA, hci]

/-- R70: an earlier event stores and counts. -/
theorem exec_eoc_early {s : State} (v : Reading) (hA : s.strategy = .A) (hci : s.ci ≠ .ch2) :
    exec (.eoc v) s = .next (s.quiet.store s.ci v).advanceChannel := by
  simp [exec, execEoc, State.eocTarget, hA, hci]

/-- R52: `EOC` is masked outside Strategy A. -/
theorem exec_eoc_masked {s : State} (v : Reading) (hA : s.strategy ≠ .A) :
    exec (.eoc v) s = .next s.quiet := by
  simp [exec, execEoc, hA]

/-- R75: `ARM` makes the arbiter `Armed` from any value; R52: it is masked outside Strategy B. -/
theorem exec_arm (s : State) :
    exec .arm s = .next (if s.strategy = .B then s.quiet.setCycle .armed else s.quiet) := rfl

/-- R78: the arbiter accepts the block. -/
theorem exec_tc_accepted {s : State} (a b c : Reading) (h : s.strategy = .B ∧ s.cyc = .converting) :
    exec (.tc a b c) s = .next ((s.quiet.storeBlock a b c).setCycle .complete).setCompletion := by
  simp [exec, execTc, h]

/-- R79, R52: a block outside `Converting`, or masked, has no effect. -/
theorem exec_tc_ignored {s : State} (a b c : Reading) (h : ¬(s.strategy = .B ∧ s.cyc = .converting)) :
    exec (.tc a b c) s = .next s.quiet := by
  simp [exec, execTc, h]

/-! ### The completion latch and its edge detector -/

/-- An operation that sets does not clear (R26). -/
theorem clrCond_of_setCond {i : Instr} {s : State} (hset : setCond i s = true) : clrCond i = false := by
  cases i with
  | clr => simp [setCond] at hset
  | _ => rfl

/-- The latch's equations where the operation sets (R26). -/
theorem latch_of_set {i : Instr} {s t : State} (hset : setCond i s = true) (hcs : t.cs = true)
    (hrise : t.pulses.doneRise = !s.cs) : t.cs = completionNext i s ∧ t.pulses.doneRise = doneRiseNext i s := by
  simp [completionNext, doneRiseNext, hset, hcs, hrise]

/-- The latch's equations where the operation neither sets nor clears (R26). -/
theorem latch_of_kept {i : Instr} {s t : State} (hset : setCond i s = false) (hclr : clrCond i = false)
    (hcs : t.cs = s.cs) (hrise : t.pulses.doneRise = false) :
    t.cs = completionNext i s ∧ t.pulses.doneRise = doneRiseNext i s := by
  simp [completionNext, doneRiseNext, hset, hclr, hcs, hrise]

/-- R26 over every operation: the step's `CS` and `done_rise` are what the two equations give. -/
theorem exec_latch {i : Instr} {s t : State} (h : exec i s = .next t) :
    t.cs = completionNext i s ∧ t.pulses.doneRise = doneRiseNext i s := by
  cases i with
  | nop =>
    cases (exec_nop s).symm.trans h
    exact latch_of_kept rfl rfl rfl rfl
  | ready =>
    cases (exec_ready s).symm.trans h
    exact latch_of_kept rfl rfl rfl rfl
  | start =>
    cases (exec_start s).symm.trans h
    split_ifs <;> exact latch_of_kept rfl rfl rfl rfl
  | eoc v =>
    by_cases hA : s.strategy = .A
    · by_cases hci : s.ci = .ch2
      · cases (exec_eoc_last v hA hci).symm.trans h
        exact latch_of_set (by simp [setCond, hA, hci]) rfl rfl
      · cases (exec_eoc_early v hA hci).symm.trans h
        exact latch_of_kept (by simp [setCond, hci]) rfl rfl rfl
    · cases (exec_eoc_masked v hA).symm.trans h
      exact latch_of_kept (by simp [setCond, hA]) rfl rfl rfl
  | arm =>
    cases (exec_arm s).symm.trans h
    split_ifs <;> exact latch_of_kept rfl rfl rfl rfl
  | tc a b c =>
    by_cases hacc : s.strategy = .B ∧ s.cyc = .converting
    · cases (exec_tc_accepted a b c hacc).symm.trans h
      exact latch_of_set (by simp [setCond, hacc]) rfl rfl
    · cases (exec_tc_ignored a b c hacc).symm.trans h
      exact latch_of_kept (by simpa [setCond] using hacc) rfl rfl rfl
  | clr =>
    cases (exec_clr s).symm.trans h
    exact ⟨rfl, rfl⟩

/-- Settles O23: every clause reads off R26's equations, once `set` and `clr` are known to exclude each other. -/
theorem completionLatchFollowsItsEquation : Obligations.CompletionLatchFollowsItsEquation := by
  intro i s t h
  obtain ⟨hcs, hrise⟩ := exec_latch h
  have hexcl : setCond i s = true → clrCond i = false := clrCond_of_setCond
  rw [hcs, hrise]
  cases hset : setCond i s with
  | true => simp [completionNext, doneRiseNext, hset, hexcl hset]
  | false => cases hclr : clrCond i <;> simp [completionNext, doneRiseNext, hset, hclr]

/-! ### Reset (R21) -/

/-- The status word of the reset state shows the strap alone. -/
theorem status_resetWith (σ : Strategy) : (State.resetWith σ).status = strapBit σ ++ 0b000000#6 := by
  cases σ <;> rfl

/-- Settles O26: the registers by the definition of the reset state, STATUS by its value there in either build. -/
theorem resetLeavesTheResetState : Obligations.ResetLeavesTheResetState :=
  ⟨fun _ => ⟨rfl, rfl, rfl, rfl, rfl, rfl, rfl⟩, status_resetWith .A, status_resetWith .B⟩

/-! ### The fields of STATUS (R20) -/

/-- STATUS bit by bit, its width written as the sum of its fields' widths, which the library's laws of `++` need. -/
theorem status_getLsbD (s : State) (k : Nat) :
    s.status.getLsbD k =
      (strapBit s.strategy ++ s.cyc.code ++ s.ci.code ++ BitVec.ofBool s.go ++ BitVec.ofBool s.cs).getLsbD k := rfl

/-- A field of two bits above `GO` and `CS` is one of the registers' codes, read two places lower. -/
theorem status_extract_above_flags (s : State) (k : Nat) :
    s.status.extractLsb' (k + 2) 2 = (strapBit s.strategy ++ s.cyc.code ++ s.ci.code).extractLsb' k 2 :=
  (BitVec.extractLsb'_append_eq_of_le (xlo := BitVec.ofBool s.cs) (by omega)).trans
    (BitVec.extractLsb'_append_eq_of_le (xlo := BitVec.ofBool s.go) (by omega))

theorem status_done (s : State) : s.status.getLsbD 0 = s.cs := by
  simp only [status_getLsbD, BitVec.getLsbD_append]
  simp

theorem status_gate (s : State) : s.status.getLsbD 1 = s.go := by
  simp only [status_getLsbD, BitVec.getLsbD_append]
  simp

theorem status_chidx (s : State) : s.status.extractLsb' 2 2 = s.ci.code :=
  (status_extract_above_flags s 0).trans BitVec.extractLsb'_append_eq_right

theorem status_cyc (s : State) : s.status.extractLsb' 4 2 = s.cyc.code := by
  rw [status_extract_above_flags s 2, BitVec.extractLsb'_append_eq_of_le (by omega)]
  exact BitVec.extractLsb'_append_eq_right

theorem strapBit_getLsbD_zero (σ : Strategy) : (strapBit σ).getLsbD 0 = decide (σ = .B) := by
  cases σ <;> rfl

theorem status_strat (s : State) : s.status.getLsbD 6 = decide (s.strategy = .B) := by
  rw [← strapBit_getLsbD_zero, status_getLsbD]
  simp only [BitVec.getLsbD_append]
  simp

/-- Settles O28: the fields are `CI`'s and `CYC`'s codes, whose tables are the statement's. -/
theorem statusWordLayout : Obligations.StatusWordLayout := fun s =>
  ⟨status_done s, status_gate s, status_chidx s, status_cyc s, status_strat s⟩

/-! ### The level outputs (R18) -/

theorem Channel.code_toNat (c : Channel) : c.code.toNat = c.index := by
  cases c <;> rfl

theorem CycleState.code_toNat (c : CycleState) :
    c.code.toNat = (match c with | .idle => 0 | .armed => 1 | .converting => 2 | .complete => 3) := by
  cases c <;> rfl

/-- Settles O29: the levels are the registers by definition; the two codes have the numbers of R13 and R15. -/
theorem levelOutputsShowTheRegisters : Obligations.LevelOutputsShowTheRegisters := fun s =>
  ⟨rfl, rfl, rfl, rfl, rfl, s.ci.code_toNat, s.cyc.code_toNat⟩

end Sys2Proof.Machine

/-! PROOFS. The sample buffer and its write enables (20_memory.md). -/

namespace Sys2Proof.Machine

/-! ### The readings of a decoded event (R46) -/

theorem lane_of_decode_eoc {w : OpWord} {v : Reading} (h : decode w = .ok (.eoc v)) : v = lane0 w := by
  unfold decode at h
  split at h <;> cases h
  rfl

theorem lanes_of_decode_tc {w : OpWord} {a b c : Reading} (h : decode w = .ok (.tc a b c)) :
    a = lane0 w ∧ b = lane1 w ∧ c = lane2 w := by
  unfold decode at h
  split at h <;> cases h
  exact ⟨rfl, rfl, rfl⟩

/-! ### What a step can do to the buffer -/

/-- The three things a step from `s` to `t` can do to the buffer and the write enables (R31, R33, R42); `d` is what the
decoder says of the step's word. -/
inductive BufferEffect (d : Except DecodeReject Instr) (s t : State) : Prop
  /-- A live `EOC` writes the slot that `CI` names. -/
  | event (v : Reading) (word : d = .ok (.eoc v)) (live : s.strategy = .A) (sb : t.sb = s.sb.write s.ci v)
      (we : t.pulses.we = s.ci.enable)
  /-- An accepted `TC` writes the whole block. -/
  | block (a b c : Reading) (word : d = .ok (.tc a b c)) (accepted : s.strategy = .B ∧ s.cyc = .converting)
      (sb : t.sb = ⟨a, b, c⟩) (we : t.pulses.we = 0b111#3)
  /-- Any other word writes nothing. -/
  | kept (noEvent : ∀ v, d = .ok (.eoc v) → s.strategy ≠ .A)
      (noBlock : ∀ a b c, d = .ok (.tc a b c) → ¬(s.strategy = .B ∧ s.cyc = .converting))
      (sb : t.sb = s.sb) (we : t.pulses.we = 0b000#3)

/-- Only `EOC` and `TC` have a case in which they write: an operation that is neither has to be shown quiet. -/
theorem BufferEffect.of_other {i : Instr} {s t : State} (heoc : ∀ v, i ≠ .eoc v) (htc : ∀ a b c, i ≠ .tc a b c)
    (sb : t.sb = s.sb) (we : t.pulses.we = 0b000#3) : BufferEffect (.ok i) s t :=
  .kept (fun v hi => absurd (Except.ok.inj hi) (heoc v)) (fun a b c hi => absurd (Except.ok.inj hi) (htc a b c)) sb we

/-- R31 and R33 over every operation. -/
theorem exec_bufferEffect {i : Instr} {s t : State} (h : exec i s = .next t) : BufferEffect (.ok i) s t := by
  cases i with
  | nop =>
    cases (exec_nop s).symm.trans h
    exact .of_other nofun nofun rfl rfl
  | ready =>
    cases (exec_ready s).symm.trans h
    exact .of_other nofun nofun rfl rfl
  | start =>
    cases (exec_start s).symm.trans h
    split_ifs <;> exact .of_other nofun nofun rfl rfl
  | eoc v =>
    by_cases hA : s.strategy = .A
    · by_cases hci : s.ci = .ch2
      · cases (exec_eoc_last v hA hci).symm.trans h
        exact .event v rfl hA rfl (by simp [Pulses.quiet])
      · cases (exec_eoc_early v hA hci).symm.trans h
        exact .event v rfl hA rfl (by simp [Pulses.quiet])
    · cases (exec_eoc_masked v hA).symm.trans h
      exact .kept (fun _ _ => hA) nofun rfl rfl
  | arm =>
    cases (exec_arm s).symm.trans h
    split_ifs <;> exact .of_other nofun nofun rfl rfl
  | tc a b c =>
    by_cases hacc : s.strategy = .B ∧ s.cyc = .converting
    · cases (exec_tc_accepted a b c hacc).symm.trans h
      exact .block a b c rfl hacc rfl (by simp [Pulses.quiet])
    · cases (exec_tc_ignored a b c hacc).symm.trans h
      exact .kept nofun (fun _ _ _ _ => hacc) rfl rfl
  | clr =>
    cases (exec_clr s).symm.trans h
    exact .of_other nofun nofun rfl rfl

/-- The step on a word that decodes runs the operation on the state with that word taken (R45). -/
theorem step_of_decode_ok {s : State} {i : Instr} (hd : decode s.presented = .ok i) : step s = exec i s.consume := by
  simp [step, hd]

/-- The step on a rejected word is quiet (R50). -/
theorem step_of_decode_error {s : State} {r : DecodeReject} (hd : decode s.presented = .error r) :
    step s = .next s.consume.ignoreReserved := by
  simp [step, hd]

/-- Taking a word from the port moves nothing the buffer's effect depends on. -/
theorem BufferEffect.of_consume {d : Except DecodeReject Instr} {s t : State} (h : BufferEffect d s.consume t) :
    BufferEffect d s t := by
  cases h with
  | event v word live sb we => exact .event v word live sb we
  | block a b c word accepted sb we => exact .block a b c word accepted sb we
  | kept noEvent noBlock sb we => exact .kept noEvent noBlock sb we

/-- R31 and R33 over every step, a reserved word's included. -/
theorem step_bufferEffect {s t : State} (h : step s = .next t) : BufferEffect (decode s.presented) s t := by
  cases hd : decode s.presented with
  | ok i => exact .of_consume (exec_bufferEffect ((step_of_decode_ok hd).symm.trans h))
  | error r =>
    cases (step_of_decode_error hd).symm.trans h
    exact .kept nofun nofun rfl rfl

/-! ### The write enables and the slots -/

/-- The two ways of saying that a state does not accept a block. -/
theorem not_accepting_iff (s : State) :
    ¬(s.strategy = .B ∧ s.cyc = .converting) ↔ s.strategy = .A ∨ s.cyc ≠ .converting := by
  cases hσ : s.strategy <;> simp

/-- Settles O22: the two effects that write are a live `EOC`'s and an accepted `TC`'s, which the premises exclude. -/
theorem onlyLiveEventsWriteTheBuffer : Obligations.OnlyLiveEventsWriteTheBuffer := by
  intro s t h heoc htc
  cases step_bufferEffect h with
  | event v word live => cases live.symm.trans (heoc v word)
  | block a b c word accepted => exact absurd accepted ((not_accepting_iff s).mpr (htc a b c word))
  | kept _ _ sb we => exact ⟨sb, we⟩

theorem step_we_of_live_eoc {s t : State} {v : Reading} (h : step s = .next t)
    (hd : decode s.presented = .ok (.eoc v)) (hA : s.strategy = .A) : t.pulses.we = s.ci.enable := by
  cases step_bufferEffect h with
  | event _ _ _ _ we => exact we
  | block a b c word => cases hd.symm.trans word
  | kept noEvent => exact absurd hA (noEvent v hd)

theorem step_we_of_accepted_tc {s t : State} {a b c : Reading} (h : step s = .next t)
    (hd : decode s.presented = .ok (.tc a b c)) (hacc : s.strategy = .B ∧ s.cyc = .converting) :
    t.pulses.we = 0b111#3 := by
  cases step_bufferEffect h with
  | event v word => cases hd.symm.trans word
  | block _ _ _ _ _ _ we => exact we
  | kept _ noBlock => exact absurd hacc (noBlock a b c hd)

/-- Settles O20: the enable of `CI` is one-hot; the third clause is O22's. -/
theorem writeEnablesFollowTheRule : Obligations.WriteEnablesFollowTheRule := by
  intro s t h
  refine ⟨fun v hd hA => ?_, fun a b c hd hB hconv => step_we_of_accepted_tc h hd ⟨hB, hconv⟩,
    fun heoc htc => (onlyLiveEventsWriteTheBuffer s t h heoc htc).2⟩
  have hwe : t.pulses.we = s.ci.enable := step_we_of_live_eoc h hd hA
  refine ⟨fun hci => ?_, fun hci => ?_, fun hci => ?_⟩ <;> rw [hwe, hci] <;> rfl

/-- The write enable of a slot is the vector's bit of that slot and no other (R19). -/
theorem Channel.enable_getLsbD (i k : Channel) : i.enable.getLsbD k.index = decide (k = i) := by
  cases i <;> cases k <;> rfl

theorem allEnables_getLsbD (k : Channel) : (0b111#3).getLsbD k.index = true := by
  cases k <;> rfl

/-- Settles O21, by what the step did to the buffer: each effect raises the enables of the slots it writes. -/
theorem slotsChangeThroughTheirWriteEnable : Obligations.SlotsChangeThroughTheirWriteEnable := by
  intro s t h k
  cases step_bufferEffect h with
  | event v word live sb we =>
    have hslot : t.slot k = if k = s.ci then v else s.slot k :=
      (congrArg (·.read k) sb).trans (s.slot_store s.ci k v)
    simp [hslot, we, live, Channel.enable_getLsbD, lane_of_decode_eoc word]
  | block a b c word accepted sb we =>
    obtain ⟨ha, hb, hc⟩ := lanes_of_decode_tc word
    rw [we, if_pos (allEnables_getLsbD k), accepted.1, State.slot, sb]
    cases k with
    | ch0 => exact ha
    | ch1 => exact hb
    | ch2 => exact hc
  | kept _ _ sb we => simp [State.slot, sb, we]

/-! ### The block transfer (R39) -/

/-- Strategy B with a cycle in flight, the buffer holding `b`. -/
structure CopyInFlight (b : SampleBuffer) (s : State) : Prop where
  strategy : s.strategy = .B
  cyc : s.cyc = .converting
  sb : s.sb = b

/-- An effective `START` begins the flight over the buffer as it stands (R60). -/
theorem CopyInFlight.of_start {s : State} (hB : s.strategy = .B) (harmed : s.cyc = .armed) (hgo : s.go = true) :
    CopyInFlight s.sb (after .start s) := by
  have hafter : after .start s = s.quiet.raiseStart.setCycle .converting :=
    after_eq (by simp [exec_start, hB, harmed, hgo])
  rw [hafter]
  exact ⟨hB, rfl, rfl⟩

/-- Nothing but `ARM` and `TC` moves an arbiter out of `Converting`, and in Strategy B nothing but `TC` writes. -/
theorem CopyInFlight.kept {b : SampleBuffer} {s : State} {i : Instr} (hf : CopyInFlight b s) (harm : i ≠ .arm)
    (htc : ∀ x y z, i ≠ .tc x y z) : CopyInFlight b (after i s) := by
  obtain ⟨hB, hconv, hsb⟩ := hf
  cases i with
  | nop => exact ⟨hB, hconv, hsb⟩
  | ready => exact ⟨hB, hconv, hsb⟩
  | start =>
    rw [after_eq (exec_start s)]
    split_ifs with _ hstart
    · cases hconv.symm.trans hstart.2
    · exact ⟨hB, hconv, hsb⟩
    · exact ⟨hB, hconv, hsb⟩
  | eoc v =>
    rw [after_eq (exec_eoc_masked v (by simp [hB]))]
    exact ⟨hB, hconv, hsb⟩
  | arm => exact absurd rfl harm
  | tc x y z => exact absurd rfl (htc x y z)
  | clr => exact ⟨hB, hconv, hsb⟩

theorem CopyInFlight.kept_runOps {b : SampleBuffer} {ops : List Instr} {s : State} (hf : CopyInFlight b s)
    (harm : Instr.arm ∉ ops) (htc : ∀ x y z, Instr.tc x y z ∉ ops) : CopyInFlight b (runOps ops s) := by
  induction ops generalizing s with
  | nil => exact hf
  | cons i is ih =>
    have hi : CopyInFlight b (after i s) :=
      hf.kept (fun hi => harm (by simp [hi])) (fun x y z hi => htc x y z (by simp [hi]))
    exact ih hi (fun hm => harm (List.mem_cons_of_mem i hm)) (fun x y z hm => htc x y z (List.mem_cons_of_mem i hm))

/-- The `TC` that ends a flight is accepted (R78). -/
theorem CopyInFlight.after_tc {b : SampleBuffer} {s : State} (hf : CopyInFlight b s) (x y z : Reading) :
    after (.tc x y z) s = ((s.quiet.storeBlock x y z).setCycle .complete).setCompletion :=
  after_eq (exec_tc_accepted x y z ⟨hf.strategy, hf.cyc⟩)

/-- Settles O39: once its `START` is taken every part of the sequence keeps the flight, and the `TC` finds it unbroken. -/
theorem blockTransferIsAtomic : Obligations.BlockTransferIsAtomic := by
  intro s mid a b c hB harmed hgo harm htc
  have hstart : CopyInFlight s.sb (after .start s) := .of_start hB harmed hgo
  have hend : runOps (.start :: mid ++ [.tc a b c]) s =
      (((runOps (.start :: mid) s).quiet.storeBlock a b c).setCycle .complete).setCompletion := by
    rw [runOps_append]
    exact (hstart.kept_runOps harm htc).after_tc a b c
  refine ⟨fun pre hpre => ?_, by rw [hend]; rfl, by rw [hend]; rfl, by rw [hend]; rfl⟩
  cases pre with
  | nil => rfl
  | cons i is =>
    obtain ⟨rest, hrest⟩ := hpre
    obtain ⟨rfl, rfl⟩ := List.cons.inj hrest
    have hflight : CopyInFlight s.sb (runOps is (after .start s)) :=
      hstart.kept_runOps (fun hm => harm (List.mem_append_left rest hm))
        (fun x y z hm => htc x y z (List.mem_append_left rest hm))
    exact hflight.sb

end Sys2Proof.Machine

/-! PROOFS. The encoding: the lanes an operation does not use, and the operations a strategy masks (30_encoding.md). -/

namespace Sys2Proof.Machine

/-! ### What the decoder and the step depend on (R48) -/

/-- The decoder reads the opcode, lane 0 under the opcode of `EOC`, and the three lanes under that of `TC`. -/
theorem decode_congr {w w' : OpWord} (hop : opField w = opField w') (heoc : opField w = 0x3#4 → lane0 w = lane0 w')
    (htc : opField w = 0x5#4 → lane0 w = lane0 w' ∧ lane1 w = lane1 w' ∧ lane2 w = lane2 w') :
    decode w = decode w' := by
  unfold decode
  rw [← hop]
  split
  case h_4 hthree => rw [heoc (BitVec.eq_of_toNat_eq hthree)]
  case h_6 hfive =>
    obtain ⟨h0, h1, h2⟩ := htc (BitVec.eq_of_toNat_eq hfive)
    rw [h0, h1, h2]
  all_goals rfl

/-- A word acts through what the decoder says of it and in no other way (R49). -/
theorem step_present_congr {w w' : OpWord} (s : State) (h : decode w = decode w') :
    step (s.present w) = step (s.present w') := by
  cases hd : decode w with
  | ok i =>
    have hleft : step (s.present w) = exec i s := step_of_decode_ok hd
    have hright : step (s.present w') = exec i s := step_of_decode_ok (h.symm.trans hd)
    rw [hleft, hright]
  | error r =>
    have hleft : step (s.present w) = .next s.ignoreReserved := step_of_decode_error hd
    have hright : step (s.present w') = .next s.ignoreReserved := step_of_decode_error (h.symm.trans hd)
    rw [hleft, hright]

/-! ### The lanes of an encoded operation (R48, D4) -/

/-- The encoder packs the operation's opcode and its lanes. -/
theorem encode_eq_packWord (i : Instr) :
    encode i = packWord (opcodeOf i) (lanesOf i).w2 (lanesOf i).w1 (lanesOf i).w0 := by
  cases i <;> rfl

@[simp] theorem lane0_encode (i : Instr) : lane0 (encode i) = (lanesOf i).w0 := by
  rw [encode_eq_packWord, lane0_packWord]

@[simp] theorem lane1_encode (i : Instr) : lane1 (encode i) = (lanesOf i).w1 := by
  rw [encode_eq_packWord, lane1_packWord]

@[simp] theorem lane2_encode (i : Instr) : lane2 (encode i) = (lanesOf i).w2 := by
  rw [encode_eq_packWord, lane2_packWord]

/-- Lanes 1 and 2 are used by `TC` alone, lane 0 by `TC` and `EOC`. -/
theorem lanesOf_unused {i : Instr} (htc : ∀ a b c, i ≠ .tc a b c) :
    (lanesOf i).w1 = 0#12 ∧ (lanesOf i).w2 = 0#12 ∧ ((∀ v, i ≠ .eoc v) → (lanesOf i).w0 = 0#12) := by
  cases i with
  | eoc v => exact ⟨rfl, rfl, fun heoc => absurd rfl (heoc v)⟩
  | tc a b c => exact absurd rfl (htc a b c)
  | _ => exact ⟨rfl, rfl, fun _ => rfl⟩

theorem mask_of_mem_opcodeTable : ∀ r ∈ opcodeTable, r.mask = opcodeMask := by
  simp [opcodeTable]

/-- Settles O4: the step sees a word through the decoder alone, and the decoder reads no lane that is not used. -/
theorem unusedLanesHaveNoEffect : Obligations.UnusedLanesHaveNoEffect := by
  refine ⟨fun s w w' hop heoc htc => step_present_congr s (decode_congr hop heoc htc), fun i htc => ?_,
    mask_of_mem_opcodeTable⟩
  rw [lane0_encode, lane1_encode, lane2_encode]
  exact lanesOf_unused htc

/-! ### The masked operations (R52, D7) -/

theorem exec_of_not_liveIn {i : Instr} {s : State} (hdead : i.liveIn s.strategy = false) :
    exec i s = .next s.quiet := by
  cases i with
  | eoc v => exact exec_eoc_masked v (of_decide_eq_false hdead)
  | arm =>
    have hB : s.strategy ≠ .B := of_decide_eq_false hdead
    rw [exec_arm, if_neg hB]
  | tc a b c =>
    have hB : s.strategy ≠ .B := of_decide_eq_false hdead
    exact exec_tc_ignored a b c (fun hacc => hB hacc.1)
  | nop | ready | start | clr => cases hdead

/-- The column "live in" of R47, read for the operations that are not. -/
theorem liveIn_eq_false_iff (i : Instr) (σ : Strategy) :
    i.liveIn σ = false ↔
      (σ = .B ∧ ∃ v, i = .eoc v) ∨ (σ = .A ∧ (i = .arm ∨ ∃ a b c, i = .tc a b c)) := by
  cases i with
  | eoc | arm | tc => cases σ <;> simp [Instr.liveIn]
  | nop | ready | start | clr => simp [Instr.liveIn]

/-- Settles O18: a masked operation answers the quiet state, and the masked ones are read off the "live in" column. -/
theorem deadStrategyOperationsAreMasked : Obligations.DeadStrategyOperationsAreMasked :=
  ⟨fun _ _ hdead => exec_of_not_liveIn hdead, liveIn_eq_false_iff⟩

end Sys2Proof.Machine

/-! PROOFS. The host's operations START and CLR (40_controller_ops.md). -/

namespace Sys2Proof.Machine

/-! ### The words of the operations without operands (R47, R48) -/

/-- Under the opcode of an operation that takes no reading, every word decodes to it, whatever its lanes hold. -/
theorem decode_packWord_of_no_reading {i : Instr} (heoc : ∀ v, i ≠ .eoc v) (htc : ∀ a b c, i ≠ .tc a b c)
    (w2 w1 w0 : Reading) : decode (packWord (opcodeOf i) w2 w1 w0) = .ok i := by
  unfold decode
  rw [opField_packWord]
  cases i with
  | eoc v => exact absurd rfl (heoc v)
  | tc a b c => exact absurd rfl (htc a b c)
  | nop | ready | start | arm | clr => rfl

/-! ### `START` in every case (R60, R61) -/

/-- Gate closed: the request is dropped (D9). -/
theorem exec_start_dropped {s : State} (hgo : s.go = false) : exec .start s = .next s.quiet := by
  simp [exec_start, hgo]

/-- Gate open and the arbiter armed: the trigger begins the cycle. -/
theorem exec_start_armed {s : State} (hgo : s.go = true) (hB : s.strategy = .B) (harmed : s.cyc = .armed) :
    exec .start s = .next (s.quiet.raiseStart.setCycle .converting) := by
  simp [exec_start, hgo, hB, harmed]

/-- Gate open in every other case: the trigger alone (D13). -/
theorem exec_start_unarmed {s : State} (hgo : s.go = true) (h : ¬(s.strategy = .B ∧ s.cyc = .armed)) :
    exec .start s = .next s.quiet.raiseStart := by
  rw [exec_start, if_pos hgo, if_neg h]

/-- Settles O13: the three answers of `START`, by the gate and by whether the arbiter is armed. -/
theorem startTriggersThroughTheGate : Obligations.StartTriggersThroughTheGate := by
  refine ⟨decode_packWord_of_no_reading (i := .start) nofun nofun, fun s hgo => exec_start_dropped hgo,
    fun s hgo hB harmed => exec_start_armed hgo hB harmed, fun s hgo hother => exec_start_unarmed hgo ?_⟩
  rintro ⟨hB, harmed⟩
  cases hother with
  | inl hA => cases hB.symm.trans hA
  | inr hne => exact hne harmed

/-! ### `CLR` (R63) -/

/-- Settles O14: `CLR` is the one update `CS <- 0` on the quiet state (D20: `CI` is not among what it writes). -/
theorem clrClearsTheSignalOnly : Obligations.ClrClearsTheSignalOnly :=
  ⟨decode_packWord_of_no_reading (i := .clr) nofun nofun, exec_clr⟩

end Sys2Proof.Machine

/-! PROOFS. The channel sequencer's operation EOC (41_sequencer_ops.md). -/

namespace Sys2Proof.Machine

/-! ### The word of `EOC` (R46, R47) -/

/-- Under the opcode of `EOC` the reading is lane 0, whatever the upper lanes hold. -/
theorem decode_packWord_eoc (w2 w1 v : Reading) : decode (packWord 0x3#4 w2 w1 v) = .ok (.eoc v) := by
  have hlane : decode (packWord 0x3#4 w2 w1 v) = .ok (.eoc (lane0 (packWord 0x3#4 w2 w1 v))) := by
    unfold decode
    rw [opField_packWord]
    rfl
  rw [hlane, lane0_packWord]

/-! ### The live event, field by field (R70, R71) -/

/-- A store that begins a step raises its own write enable and no other pulse (R31). -/
theorem State.quiet_store (s : State) (i : Channel) (v : Reading) :
    s.quiet.store i v = { s with
      sb := s.sb.write i v, pulses := { startPulse := false, doneRise := false, we := i.enable } } := by
  simp [State.store, State.quiet, Pulses.quiet]

/-- The first two rows of the table: the latch is not touched. -/
theorem exec_eoc_early_fields {s : State} (v : Reading) (hA : s.strategy = .A) (hci : s.ci ≠ .ch2) :
    exec (.eoc v) s = .next { s with
      sb := s.sb.write s.ci v, ci := s.ci.succ,
      pulses := { startPulse := false, doneRise := false, we := s.ci.enable } } := by
  rw [exec_eoc_early v hA hci, State.quiet_store]
  rfl

/-- The third row: the latch is set, and its edge shows if it was down (R26). -/
theorem exec_eoc_last_fields {s : State} (v : Reading) (hA : s.strategy = .A) (hci : s.ci = .ch2) :
    exec (.eoc v) s = .next { s with
      sb := s.sb.write s.ci v, ci := s.ci.succ, cs := true,
      pulses := { startPulse := false, doneRise := !s.cs, we := s.ci.enable } } := by
  rw [exec_eoc_last v hA hci, State.quiet_store]
  rfl

/-- Settles O15: each row is the live event's fields read at one value of `CI`, and Strategy B masks the event. -/
theorem eocFollowsTheTransitionTable : Obligations.EocFollowsTheTransitionTable := by
  refine ⟨decode_packWord_eoc, fun s v hA hci => ?ch0, fun s v hA hci => ?ch1, fun s v hA hci => ?ch2,
    fun s v hB => exec_eoc_masked v (by simp [hB])⟩
  case ch0 =>
    rw [exec_eoc_early_fields v hA (by simp [hci]), hci]
    rfl
  case ch1 =>
    rw [exec_eoc_early_fields v hA (by simp [hci]), hci]
    rfl
  case ch2 =>
    rw [exec_eoc_last_fields v hA hci, hci]
    rfl

end Sys2Proof.Machine

/-! PROOFS. The transfer engine's operations ARM and TC (42_transfer_ops.md). -/

namespace Sys2Proof.Machine

/-! ### `ARM` (R75) -/

/-- Settles O16: the one `if` of `ARM` asks for the strategy alone, neither for `CYC` (D12) nor for `GO` (D24). -/
theorem armArmsFromEveryCycleState : Obligations.ArmArmsFromEveryCycleState := by
  refine ⟨decode_packWord_of_no_reading (i := .arm) nofun nofun, fun s hB => ?live, fun s hA => ?masked⟩
  case live =>
    rw [exec_arm, if_pos hB]
    rfl
  case masked => exact exec_of_not_liveIn (by simp [Instr.liveIn, hA])

/-! ### The word of `TC` (R46, R47) -/

/-- Under the opcode of `TC` the readings are the three lanes, lane 0 first. -/
theorem decode_packWord_tc (a b c : Reading) : decode (packWord 0x5#4 c b a) = .ok (.tc a b c) := by
  have hlanes : decode (packWord 0x5#4 c b a) =
      .ok (.tc (lane0 (packWord 0x5#4 c b a)) (lane1 (packWord 0x5#4 c b a)) (lane2 (packWord 0x5#4 c b a))) := by
    unfold decode
    rw [opField_packWord]
    rfl
  rw [hlanes, lane0_packWord, lane1_packWord, lane2_packWord]

/-! ### The accepted block, field by field (R78) -/

/-- A block store that begins a step raises the three write enables and no other pulse (R31). -/
theorem State.quiet_storeBlock (s : State) (a b c : Reading) :
    s.quiet.storeBlock a b c = { s with
      sb := ⟨a, b, c⟩, pulses := { startPulse := false, doneRise := false, we := 0b111#3 } } := by
  rw [State.storeBlock, State.quiet_store]
  simp [State.store, SampleBuffer.write, Channel.enable]

/-- The latch's edge shows if it was down (R26). -/
theorem exec_tc_accepted_fields {s : State} (a b c : Reading) (hacc : s.strategy = .B ∧ s.cyc = .converting) :
    exec (.tc a b c) s = .next { s with
      sb := ⟨a, b, c⟩, cyc := .complete, cs := true,
      pulses := { startPulse := false, doneRise := !s.cs, we := 0b111#3 } } := by
  rw [exec_tc_accepted a b c hacc, State.quiet_storeBlock]
  rfl

/-- Settles O17: acceptance asks for Strategy B and `Converting` together, and where either fails the block is
ignored (D11). -/
theorem tcIsAcceptedInConvertingOnly : Obligations.TcIsAcceptedInConvertingOnly :=
  ⟨decode_packWord_tc, fun _ a b c hB hconv => exec_tc_accepted_fields a b c ⟨hB, hconv⟩,
    fun s a b c hother => exec_tc_ignored a b c ((not_accepting_iff s).mpr hother)⟩

end Sys2Proof.Machine

/-! PROOFS. The readiness gate's operation READY and the idle operation NOP (43_gate_and_idle_ops.md). -/

namespace Sys2Proof.Machine

/-! ### `READY` (R85) -/

/-- Settles O12: `READY` is the one update `GO <- 1` on the quiet state, so nothing in it can start a cycle. -/
theorem readyOpensTheGateOnly : Obligations.ReadyOpensTheGateOnly :=
  ⟨decode_packWord_of_no_reading (i := .ready) nofun nofun, exec_ready⟩

/-! ### What a step sees of the pulses of the step before it: nothing (R49's defaults) -/

/-- Every meaning begins from the quiet state and reads registers only. -/
theorem exec_quiet (i : Instr) (s : State) : exec i s.quiet = exec i s := by
  cases i with
  | nop | ready | start | eoc _ | arm | tc _ _ _ | clr => rfl

/-- R94: every operation answers a next state. -/
theorem exec_eq_next_after (i : Instr) (s : State) : exec i s = .next (after i s) := by
  cases i with
  | nop | ready | start | eoc _ | arm | tc _ _ _ | clr => rfl

theorem after_quiet (i : Instr) (s : State) : after i s.quiet = after i s :=
  after_eq ((exec_quiet i s).trans (exec_eq_next_after i s))

theorem after_nop (s : State) : after .nop s = s.quiet := after_eq (exec_nop s)

/-- One step is enough to overwrite the pulses. -/
theorem runOps_quiet_of_ne_nil {js : List Instr} (hne : js ≠ []) (s : State) : runOps js s.quiet = runOps js s := by
  cases js with
  | nil => exact absurd rfl hne
  | cons j js => rw [runOps_cons, runOps_cons, after_quiet]

theorem SameRegisters.refl (s : State) : SameRegisters s s := ⟨rfl, rfl, rfl, rfl, rfl, rfl⟩

theorem State.quiet_sameRegisters (s : State) : SameRegisters s.quiet s := ⟨rfl, rfl, rfl, rfl, rfl, rfl⟩

theorem runOps_quiet_sameRegisters (js : List Instr) (s : State) :
    SameRegisters (runOps js s.quiet) (runOps js s) := by
  cases js with
  | nil => exact s.quiet_sameRegisters
  | cons j js =>
    rw [runOps_quiet_of_ne_nil (List.cons_ne_nil j js)]
    exact .refl _

/-! ### The pulses of a sequence (R19) -/

@[simp] theorem pulseTrace_cons (i : Instr) (is : List Instr) (s : State) :
    pulseTrace (i :: is) s = (after i s).pulses :: pulseTrace is (after i s) := rfl

theorem pulseTrace_append (is js : List Instr) (s : State) :
    pulseTrace (is ++ js) s = pulseTrace is s ++ pulseTrace js (runOps is s) := by
  induction is generalizing s with
  | nil => rfl
  | cons i is ih => exact congrArg ((after i s).pulses :: ·) (ih (after i s))

@[simp] theorem pulseTrace_length (is : List Instr) (s : State) : (pulseTrace is s).length = is.length := by
  induction is generalizing s with
  | nil => rfl
  | cons i is ih => exact congrArg (· + 1) (ih (after i s))

theorem pulseTrace_quiet (js : List Instr) (s : State) : pulseTrace js s.quiet = pulseTrace js s := by
  cases js with
  | nil => rfl
  | cons j js => rw [pulseTrace_cons, pulseTrace_cons, after_quiet]

/-- The pulses after a prefix of a sequence are those of the rest, run from where the prefix ends. -/
theorem pulseTrace_append_drop (is js : List Instr) (s : State) :
    (pulseTrace (is ++ js) s).drop is.length = pulseTrace js (runOps is s) := by
  rw [pulseTrace_append, List.drop_left' (pulseTrace_length is s)]

/-! ### `NOP` in a sequence (R87) -/

theorem runOps_insert_nop (is js : List Instr) (s : State) :
    runOps (is ++ .nop :: js) s = runOps js (runOps is s).quiet := by
  rw [runOps_append, runOps_cons, after_nop]

theorem pulseTrace_insert_nop (is js : List Instr) (s : State) :
    pulseTrace (is ++ .nop :: js) s = pulseTrace is s ++ Pulses.quiet :: pulseTrace js (runOps is s) := by
  rw [pulseTrace_append, pulseTrace_cons, after_nop, State.quiet_pulses, pulseTrace_quiet]

/-- Settles O11: an inserted `NOP` quiets the state it finds, and what follows it does not see the difference. -/
theorem nopIsNothingAnywhere : Obligations.NopIsNothingAnywhere := by
  refine ⟨decode_packWord_of_no_reading (i := .nop) nofun nofun, exec_nop, fun is js s => ⟨?registers, ?state, ?pulses⟩⟩
  case registers =>
    rw [runOps_insert_nop, runOps_append]
    exact runOps_quiet_sameRegisters js (runOps is s)
  case state =>
    intro hne
    rw [runOps_insert_nop, runOps_append, runOps_quiet_of_ne_nil hne]
  case pulses => rw [pulseTrace_insert_nop, pulseTrace_append_drop]

end Sys2Proof.Machine

/-! PROOFS. The encoding as a whole: decoding what was encoded, the opcode table, the fields of a word, the assembler
(30_encoding.md). -/

namespace Sys2Proof.Machine

/-! ### Decoding an encoded operation (R45 to R47) -/

theorem decode_encode (i : Instr) : decode (encode i) = .ok i := by
  cases i with
  | eoc v => exact decode_packWord_eoc 0#12 0#12 v
  | tc a b c => exact decode_packWord_tc a b c
  | nop | ready | start | arm | clr => exact decode_packWord_of_no_reading (by nofun) (by nofun) 0#12 0#12 0#12

/-- Settles O1: the word packs the operation's opcode and lanes, and each packed word decodes to its operation. -/
theorem decodeOfEncodeIsTheOperation : Obligations.DecodeOfEncodeIsTheOperation := decode_encode

/-! ### The fields of a word (R45, R46) -/

/-- The fields' values are the digits of the word's value, so packing them gives the word. -/
theorem packWord_fields (w : OpWord) : packWord (opField w) (lane2 w) (lane1 w) (lane0 w) = w := by
  apply BitVec.eq_of_toNat_eq
  rw [packWord_toNat, opField_toNat, lane2_toNat, lane1_toNat, lane0_toNat]
  omega

/-- What the decoder answers names the opcode it read. -/
theorem opField_of_decode_ok {w : OpWord} {i : Instr} (h : decode w = .ok i) : opField w = opcodeOf i := by
  unfold decode at h
  split at h <;> cases h <;> exact BitVec.eq_of_toNat_eq ‹_›

theorem encode_tc_of_decode {w : OpWord} {a b c : Reading} (h : decode w = .ok (.tc a b c)) :
    encode (.tc a b c) = w := by
  obtain ⟨ha, hb, hc⟩ := lanes_of_decode_tc h
  have hop : opField w = 0x5#4 := opField_of_decode_ok h
  have hpack := packWord_fields w
  rw [hop, ← ha, ← hb, ← hc] at hpack
  exact hpack

/-- Settles O3: the division by powers of two is the fields' values, and what the decoder answers carries them. -/
theorem fieldsMakeUpTheWord : Obligations.FieldsMakeUpTheWord :=
  ⟨packWord_fields, fun w => ⟨opField_toNat w, lane2_toNat w, lane1_toNat w, lane0_toNat w⟩,
    fun _ _ h => ⟨opField_of_decode_ok h, lane_of_decode_eoc h⟩, fun _ _ _ _ h => encode_tc_of_decode h⟩

/-! ### Decoding by the opcode (R47, R50) -/

/-- An operation without readings is decoded from its opcode alone. -/
theorem decode_of_opField {w : OpWord} {i : Instr} (heoc : ∀ v, i ≠ .eoc v) (htc : ∀ a b c, i ≠ .tc a b c)
    (hop : opField w = opcodeOf i) : decode w = .ok i := by
  rw [← packWord_fields w, hop]
  exact decode_packWord_of_no_reading heoc htc _ _ _

theorem decode_of_opField_eoc {w : OpWord} (hop : opField w = 0x3#4) : decode w = .ok (.eoc (lane0 w)) := by
  conv_lhs => rw [← packWord_fields w, hop]
  exact decode_packWord_eoc _ _ _

theorem decode_of_opField_tc {w : OpWord} (hop : opField w = 0x5#4) :
    decode w = .ok (.tc (lane0 w) (lane1 w) (lane2 w)) := by
  conv_lhs => rw [← packWord_fields w, hop]
  exact decode_packWord_tc _ _ _

/-- The decoder rejects the reserved opcodes and no others, by name. -/
theorem decode_error_iff {w : OpWord} {r : DecodeReject} :
    decode w = .error r ↔ 7 ≤ (opField w).toNat ∧ r = .reservedOpcode (opField w) := by
  unfold decode
  split
  case h_8 h0 h1 h2 h3 h4 h5 h6 =>
    have hop : 7 ≤ (opField w).toNat := by grind
    simp [hop, eq_comm]
  all_goals simp [*]

/-! ### The opcode table (R47) -/

/-- The opcode a row's pattern holds. -/
def rowOpcode (r : OpcodeRow) : Opcode := opField r.pattern

/-- The row of an operation. -/
def rowOf (i : Instr) : OpcodeRow := ⟨i.mnemonic, packWord (opcodeOf i) 0#12 0#12 0#12, opcodeMask⟩

theorem rowOf_mem (i : Instr) : rowOf i ∈ opcodeTable := by
  cases i with
  | eoc v => exact (by decide : rowOf (.eoc 0#12) ∈ opcodeTable)
  | tc a b c => exact (by decide : rowOf (.tc 0#12 0#12 0#12) ∈ opcodeTable)
  | nop | ready | start | arm | clr => decide

theorem rowOpcode_rowOf (i : Instr) : rowOpcode (rowOf i) = opcodeOf i := opField_packWord _ _ _ _

/-- No opcode has two rows, and none of them is reserved. -/
theorem rowOpcode_inj : ∀ r ∈ opcodeTable, ∀ r' ∈ opcodeTable, rowOpcode r' = rowOpcode r → r' = r := by
  decide

theorem rowOpcode_lt : ∀ r ∈ opcodeTable, (rowOpcode r).toNat < 7 := by
  decide

/-- A pattern has nothing below its opcode. -/
theorem pattern_of_mem_opcodeTable : ∀ r ∈ opcodeTable, r.pattern = packWord (rowOpcode r) 0#12 0#12 0#12 := by
  decide

/-- A bitwise `and` of packed words is taken field by field. -/
theorem packWord_and (op op' : Opcode) (a a' b b' c c' : Reading) :
    packWord op a b c &&& packWord op' a' b' c' = packWord (op &&& op') (a &&& a') (b &&& b') (c &&& c') := by
  change (op ++ a ++ b ++ c &&& op' ++ a' ++ b' ++ c' : BitVec (4 + 12 + 12 + 12)) = _
  rw [BitVec.and_append, BitVec.and_append, BitVec.and_append]
  rfl

/-- The mask keeps the opcode and clears the lanes (R48). -/
theorem and_opcodeMask (w : OpWord) : w &&& opcodeMask = packWord (opField w) 0#12 0#12 0#12 := by
  have hmask : opcodeMask = packWord 0xF#4 0#12 0#12 0#12 := by decide
  have hones : opField w &&& 0xF#4 = opField w := BitVec.and_allOnes
  conv_lhs => rw [← packWord_fields w, hmask, packWord_and, hones]
  simp

/-- A row selects the words that carry its opcode. -/
theorem selects_iff {r : OpcodeRow} (hr : r ∈ opcodeTable) (w : OpWord) :
    w &&& r.mask = r.pattern ↔ opField w = rowOpcode r := by
  rw [mask_of_mem_opcodeTable r hr, and_opcodeMask, pattern_of_mem_opcodeTable r hr]
  refine ⟨fun h => ?_, fun h => by rw [h]⟩
  rw [← opField_packWord (opField w) 0#12 0#12 0#12, h, opField_packWord]

/-- Settles O2: a row selects by its opcode, no two rows share one, and what the decoder answers or rejects names the
opcode it read. -/
theorem opcodeRowsAreDisjointAndCover : Obligations.OpcodeRowsAreDisjointAndCover := by
  refine ⟨fun w => ⟨decode_of_opField (i := .nop) nofun nofun, decode_of_opField (i := .ready) nofun nofun,
    decode_of_opField (i := .start) nofun nofun, decode_of_opField_eoc, decode_of_opField (i := .arm) nofun nofun,
    decode_of_opField_tc, decode_of_opField (i := .clr) nofun nofun⟩, fun w => ?_⟩
  cases hd : decode w with
  | ok i =>
    have hop : opField w = rowOpcode (rowOf i) := (opField_of_decode_ok hd).trans (rowOpcode_rowOf i).symm
    refine .inl ⟨i, rowOf i, rfl, rowOf_mem i, rfl, (selects_iff (rowOf_mem i) w).mpr hop, fun r' hr' hsel => ?_⟩
    exact rowOpcode_inj _ (rowOf_mem i) r' hr' (((selects_iff hr' w).mp hsel).symm.trans hop)
  | error r =>
    obtain ⟨hres, rfl⟩ := decode_error_iff.mp hd
    refine .inr ⟨hres, rfl, fun r hr hsel => ?_⟩
    have hlt := rowOpcode_lt r hr
    rw [← (selects_iff hr w).mp hsel] at hlt
    omega

/-- Settles O6: the decoder evaluated on each word. -/
theorem writtenOutWordsDecode : Obligations.WrittenOutWordsDecode := ⟨rfl, rfl, rfl, rfl, rfl, rfl, rfl, rfl⟩

/-! ### The assembler's lines (R54) -/

/-- An operand in range is the value of its lane. -/
theorem lane_toNat_of_inRange {v : Nat} (hv : v ≤ 4095) : (BitVec.ofNat 12 v).toNat = v := by
  rw [BitVec.toNat_ofNat]
  omega

theorem assembleLine_inRange {l : AsmLine} (h : l.inRange = true) (σ : Strategy) :
    assembleLine σ l = some (l.words σ) := if_pos h

theorem assembleLine_outOfRange {l : AsmLine} (h : l.inRange = false) (σ : Strategy) : assembleLine σ l = none := by
  simp [assembleLine, h]

/-- Settles O5: a line is assembled exactly when its operands are in range, and its word's value is the packed
fields'. -/
theorem assembledWordsHaveTheirValues : Obligations.AssembledWordsHaveTheirValues := by
  refine ⟨fun σ v hv => ?eoc, fun σ a b c ha hb hc => ?tc, fun σ v hv => ?eocError, fun σ a b c h => ?tcError,
    fun σ => ⟨rfl, rfl, rfl, rfl, rfl⟩⟩
  case eoc =>
    refine ⟨_, assembleLine_inRange (by simpa [AsmLine.inRange, operandInRange] using hv) σ, ?_⟩
    rw [encode_eq_packWord, packWord_toNat]
    simp [lanesOf, opcodeOf, lane_toNat_of_inRange hv]
  case tc =>
    refine ⟨_, assembleLine_inRange (by simp [AsmLine.inRange, operandInRange, ha, hb, hc]) σ, ?_⟩
    rw [encode_eq_packWord, packWord_toNat]
    simp only [lanesOf, opcodeOf, lane_toNat_of_inRange ha, lane_toNat_of_inRange hb, lane_toNat_of_inRange hc]
    rfl
  case eocError => exact assembleLine_outOfRange (by simpa [AsmLine.inRange, operandInRange] using hv) σ
  case tcError =>
    refine assembleLine_outOfRange ?_ σ
    simp only [AsmLine.inRange, operandInRange, Bool.and_eq_false_iff, decide_eq_false_iff_not]
    omega

end Sys2Proof.Machine

/-! PROOFS. The operations' meanings are the datapath's equations, so that each register after an operation is what its
equation gives (30_encoding.md R49). -/

namespace Sys2Proof.Machine

/-! ### The two stores (R31) -/

/-- The sequencer stores on a live `EOC` and on nothing else. -/
theorem aHit_iff (i : Instr) (s : State) : aHit i s = true ↔ s.strategy = .A ∧ ∃ v, i = .eoc v := by
  cases i <;> simp [aHit]

/-- The arbiter stores on an accepted `TC` and on nothing else. -/
theorem bHit_iff (i : Instr) (s : State) :
    bHit i s = true ↔ (s.strategy = .B ∧ s.cyc = .converting) ∧ ∃ a b c, i = .tc a b c := by
  cases i <;> simp [bHit]

/-- The latch is set by the store of a cycle's last datum (R26). -/
theorem setCond_eq (i : Instr) (s : State) : setCond i s = ((aHit i s && decide (s.ci = .ch2)) || bHit i s) := by
  cases i <;> simp [setCond, aHit, bHit]

/-- Without a store no write enable is raised and no slot moves. -/
theorem weBit_of_no_hit {i : Instr} {s : State} (ha : aHit i s = false) (hb : bHit i s = false) (k : Channel) :
    weBit i s k = false := by
  simp [weBit, ha, hb]

/-- A slot's write enable in the step of a live event: the slot is the one `CI` names. -/
theorem weBit_eoc {s : State} (v : Reading) (hA : s.strategy = .A) (k : Channel) :
    weBit (.eoc v) s k = decide (s.ci = k) := by
  simp [weBit, aHit, bHit, hA]

theorem weBit_tc {s : State} (a b c : Reading) (hacc : s.strategy = .B ∧ s.cyc = .converting) (k : Channel) :
    weBit (.tc a b c) s k = true := by
  simp [weBit, bHit, hacc]

/-- The buffer and the write enables of R31 to R33, from what the step did to them. -/
theorem exec_buffer {i : Instr} {s t : State} (h : exec i s = .next t) :
    t.sb = ⟨slotNext i s .ch0, slotNext i s .ch1, slotNext i s .ch2⟩ ∧ t.pulses.we = weVector i s := by
  cases exec_bufferEffect h with
  | event v word live sb we =>
    cases word
    rw [sb, we]
    cases hci : s.ci <;>
      simp [slotNext, weVector, weBit_eoc v live, hci, writeData, lanesOf, live, State.slot, SampleBuffer.read,
        SampleBuffer.write, Channel.enable]
  | block a b c word accepted sb we =>
    cases word
    rw [sb, we]
    simp [slotNext, weVector, weBit_tc a b c accepted, writeData, lanesOf, accepted]
  | kept noEvent noBlock sb we =>
    have ha : aHit i s = false := by
      rw [← Bool.not_eq_true, aHit_iff]
      rintro ⟨hA, v, rfl⟩
      exact noEvent v rfl hA
    have hb : bHit i s = false := by
      rw [← Bool.not_eq_true, bHit_iff]
      rintro ⟨hacc, a, b, c, rfl⟩
      exact noBlock a b c rfl hacc
    rw [sb, we]
    simp [slotNext, weVector, weBit_of_no_hit ha hb, State.slot, SampleBuffer.read]

/-! ### The sequencing registers, the gate and the trigger (R49) -/

theorem channelNext_of_no_hit {i : Instr} {s : State} (ha : aHit i s = false) : channelNext i s = s.ci := by
  simp [channelNext, ha]

theorem cycleNext_of_A {i : Instr} {s : State} (hA : s.strategy = .A) : cycleNext i s = s.cyc := by
  simp [cycleNext, hA]

/-- What a step leaves of `CI`, `CYC`, `GO`, the strap, `start_pulse` and the port is what the equations give. -/
structure Sequenced (i : Instr) (s t : State) : Prop where
  ci : t.ci = channelNext i s
  cyc : t.cyc = cycleNext i s
  go : t.go = gateNext i s
  strategy : t.strategy = s.strategy
  startPulse : t.pulses.startPulse = startPulseNext i s
  port : t.port = s.port

theorem exec_sequenced {i : Instr} {s t : State} (h : exec i s = .next t) : Sequenced i s t := by
  cases i with
  | nop | ready | clr =>
    cases h
    exact ⟨rfl, by simp [cycleNext], rfl, rfl, rfl, rfl⟩
  | start =>
    cases (exec_start s).symm.trans h
    split_ifs with hgo hacc
    · exact ⟨rfl, by simp [cycleNext, hgo, hacc], rfl, rfl, hgo.symm, rfl⟩
    · refine ⟨rfl, ?_, rfl, rfl, hgo.symm, rfl⟩
      cases hσ : s.strategy <;> simp_all [cycleNext]
    · exact ⟨rfl, by simp [cycleNext, hgo], rfl, rfl, (Bool.not_eq_true _ ▸ hgo : s.go = false).symm, rfl⟩
  | eoc v =>
    by_cases hA : s.strategy = .A
    · have hci : channelNext (.eoc v) s = s.ci.succ := by simp [channelNext, aHit, hA]
      by_cases hlast : s.ci = .ch2
      · cases (exec_eoc_last v hA hlast).symm.trans h
        exact ⟨hci.symm, (cycleNext_of_A hA).symm, rfl, rfl, rfl, rfl⟩
      · cases (exec_eoc_early v hA hlast).symm.trans h
        exact ⟨hci.symm, (cycleNext_of_A hA).symm, rfl, rfl, rfl, rfl⟩
    · cases (exec_eoc_masked v hA).symm.trans h
      have hmask : aHit (.eoc v) s = false := by simp [aHit, hA]
      exact ⟨(channelNext_of_no_hit hmask).symm, by simp [cycleNext], rfl, rfl, rfl, rfl⟩
  | arm =>
    cases (exec_arm s).symm.trans h
    split_ifs with hB
    · exact ⟨rfl, by simp [cycleNext, hB], rfl, rfl, rfl, rfl⟩
    · refine ⟨rfl, ?_, rfl, rfl, rfl, rfl⟩
      cases hσ : s.strategy <;> simp_all [cycleNext]
  | tc a b c =>
    by_cases hacc : s.strategy = .B ∧ s.cyc = .converting
    · cases (exec_tc_accepted a b c hacc).symm.trans h
      exact ⟨rfl, by simp [cycleNext, hacc], rfl, rfl, rfl, rfl⟩
    · cases (exec_tc_ignored a b c hacc).symm.trans h
      refine ⟨rfl, ?_, rfl, rfl, rfl, rfl⟩
      cases hσ : s.strategy <;> simp_all [cycleNext]

/-- Two states are the same when their registers, outputs and ports are. -/
theorem State.eq_of_fields {s t : State} (sb : s.sb = t.sb) (ci : s.ci = t.ci) (cs : s.cs = t.cs) (cyc : s.cyc = t.cyc)
    (go : s.go = t.go) (strategy : s.strategy = t.strategy) (startPulse : s.pulses.startPulse = t.pulses.startPulse)
    (doneRise : s.pulses.doneRise = t.pulses.doneRise) (we : s.pulses.we = t.pulses.we) (port : s.port = t.port) :
    s = t := by
  obtain ⟨_, _, _, _, _, _, ⟨_, _, _⟩, _⟩ := s
  obtain ⟨_, _, _, _, _, _, ⟨_, _, _⟩, _⟩ := t
  simp_all

theorem after_eq_datapathNext (i : Instr) (s : State) : after i s = datapathNext i s := by
  have h := exec_eq_next_after i s
  obtain ⟨hsb, hwe⟩ := exec_buffer h
  obtain ⟨hcs, hrise⟩ := exec_latch h
  obtain ⟨hci, hcyc, hgo, hσ, hstart, hport⟩ := exec_sequenced h
  exact State.eq_of_fields hsb hci hcs hcyc hgo hσ hstart hrise hwe hport

/-- Settles O19: the buffer, the latch and the rest of the state are each what a step can do to them. -/
theorem operationsRefineTheDatapath : Obligations.OperationsRefineTheDatapath := fun i s => by
  rw [exec_eq_next_after, after_eq_datapathNext]

/-! ### The rule of each register: what it holds after an operation -/

theorem after_ci (i : Instr) (s : State) : (after i s).ci = channelNext i s := by
  rw [after_eq_datapathNext]
  rfl

theorem after_cs (i : Instr) (s : State) : (after i s).cs = completionNext i s := by
  rw [after_eq_datapathNext]
  rfl

theorem after_cyc (i : Instr) (s : State) : (after i s).cyc = cycleNext i s := by
  rw [after_eq_datapathNext]
  rfl

theorem after_go (i : Instr) (s : State) : (after i s).go = gateNext i s := by
  rw [after_eq_datapathNext]
  rfl

@[simp] theorem after_strategy (i : Instr) (s : State) : (after i s).strategy = s.strategy := by
  rw [after_eq_datapathNext]
  rfl

@[simp] theorem after_port (i : Instr) (s : State) : (after i s).port = s.port := by
  rw [after_eq_datapathNext]
  rfl

theorem after_startPulse (i : Instr) (s : State) : (after i s).pulses.startPulse = startPulseNext i s := by
  rw [after_eq_datapathNext]
  rfl

theorem after_doneRise (i : Instr) (s : State) : (after i s).pulses.doneRise = doneRiseNext i s := by
  rw [after_eq_datapathNext]
  rfl

/-- The pulses of a step depend on the registers other than the buffer. -/
theorem after_pulses (i : Instr) (s : State) :
    (after i s).pulses = ⟨startPulseNext i s, doneRiseNext i s, weVector i s⟩ := by
  rw [after_eq_datapathNext]
  rfl

/-- No operation reads or moves the words that wait. -/
theorem after_with_port (i : Instr) (s : State) (p : List OpWord) :
    after i { s with port := p } = { after i s with port := p } := by
  rw [after_eq_datapathNext, after_eq_datapathNext]
  rfl

/-! ### The equations read backwards -/

theorem gateNext_eq_true_iff (i : Instr) (s : State) : gateNext i s = true ↔ s.go = true ∨ i = .ready := by
  cases i <;> simp [gateNext]

theorem startPulseNext_eq_true_iff (i : Instr) (s : State) :
    startPulseNext i s = true ↔ i = .start ∧ s.go = true := by
  cases i <;> simp [startPulseNext]

theorem setCond_eq_true_iff (i : Instr) (s : State) :
    setCond i s = true ↔ (s.strategy = .A ∧ s.ci = .ch2 ∧ ∃ v, i = .eoc v) ∨
      (s.strategy = .B ∧ s.cyc = .converting ∧ ∃ a b c, i = .tc a b c) := by
  rw [setCond_eq, Bool.or_eq_true, Bool.and_eq_true, decide_eq_true_eq, aHit_iff, bHit_iff]
  tauto

/-- What an operation can do to `CYC` (R15). -/
inductive CycleEffect (i : Instr) (s : State) : CycleState → Prop
  /-- An effective `START` on an armed block. -/
  | triggered (op : i = .start) (gate : s.go = true) (armed : s.cyc = .armed) : CycleEffect i s .converting
  /-- A live `ARM`. -/
  | armed (op : i = .arm) : CycleEffect i s .armed
  /-- An accepted `TC`. -/
  | completed (a b c : Reading) (op : i = .tc a b c) (converting : s.cyc = .converting) : CycleEffect i s .complete
  /-- Any other operation. -/
  | kept : CycleEffect i s s.cyc

theorem after_cycleEffect (i : Instr) (s : State) : CycleEffect i s (after i s).cyc := by
  rw [after_cyc]
  by_cases hA : s.strategy = .A
  · rw [cycleNext_of_A hA]
    exact .kept
  · unfold cycleNext
    rw [if_neg hA]
    cases i with
    | nop | ready | eoc | clr => exact .kept
    | start =>
      dsimp only
      split_ifs with h
      · exact .triggered rfl h.1 h.2
      · exact .kept
    | arm => exact .armed rfl
    | tc a b c =>
      dsimp only
      split_ifs with h
      · exact .completed a b c rfl h
      · exact .kept

/-! ### What the buffer and the latch keep -/

/-- The three cases of an operation's effect on the buffer, on the state that it leaves. -/
theorem after_bufferEffect (i : Instr) (s : State) : BufferEffect (.ok i) s (after i s) :=
  exec_bufferEffect (exec_eq_next_after i s)

theorem after_sb_of_no_hit {i : Instr} {s : State} (ha : aHit i s = false) (hb : bHit i s = false) :
    (after i s).sb = s.sb := by
  rw [after_eq_datapathNext]
  simp [datapathNext, slotNext, weBit_of_no_hit ha hb, State.slot, SampleBuffer.read]

theorem after_cs_of_set {i : Instr} {s : State} (h : setCond i s = true) : (after i s).cs = true := by
  simp [after_cs, completionNext, h]

/-- The latch keeps its value unless the operation sets or clears. -/
theorem after_cs_of_kept {i : Instr} {s : State} (hset : setCond i s = false) (hclr : i ≠ .clr) :
    (after i s).cs = s.cs := by
  have hno : clrCond i = false := by cases i <;> simp_all [clrCond]
  simp [after_cs, completionNext, hset, hno]

/-- A latch that is down stays down unless the operation sets. -/
theorem after_cs_eq_false {i : Instr} {s : State} (hset : setCond i s = false) (hcs : s.cs = false) :
    (after i s).cs = false := by
  simp [after_cs, completionNext, hset, hcs]

/-- A live event, field by field (R70, R71). -/
theorem after_eoc_sb {s : State} (v : Reading) (hA : s.strategy = .A) : (after (.eoc v) s).sb = s.sb.write s.ci v := by
  cases after_bufferEffect (.eoc v) s with
  | event w word live sb =>
    cases word
    exact sb
  | block a b c word => cases word
  | kept noEvent => exact absurd hA (noEvent v rfl)

theorem after_eoc_ci {s : State} (v : Reading) (hA : s.strategy = .A) : (after (.eoc v) s).ci = s.ci.succ := by
  simp [after_ci, channelNext, aHit, hA]

theorem after_eoc_cs {s : State} (v : Reading) (hA : s.strategy = .A) :
    (after (.eoc v) s).cs = (decide (s.ci = .ch2) || s.cs) := by
  cases h : decide (s.ci = .ch2) <;> simp [after_cs, completionNext, setCond, clrCond, hA, h]

end Sys2Proof.Machine

/-! PROOFS. One step from the port: what it answers, what it keeps, and the block's invariant (10_state.md R24,
70_reset_and_hazards.md R112). -/

namespace Sys2Proof.Machine

/-! ### What a step runs (R45, R49, R50) -/

theorem presented_of_port {s : State} {w : OpWord} {rest : List OpWord} (h : s.port = w :: rest) : s.presented = w := by
  simp [State.presented, h]

theorem presented_of_empty {s : State} (h : s.port = []) : s.presented = idleWord := by
  simp [State.presented, h]

/-- An empty port has nothing to take. -/
theorem consume_of_empty {s : State} (h : s.port = []) : s.consume = s :=
  State.eq_of_fields rfl rfl rfl rfl rfl rfl rfl rfl rfl (by rw [State.consume_port, h, List.tail_nil])

/-- Settles O7: taking the first word leaves the rest of the port. -/
theorem stepRunsThePresentedOperation : Obligations.StepRunsThePresentedOperation := by
  intro s w rest i hport hd
  rw [step_of_decode_ok (i := i) (by rw [presented_of_port hport, hd]), State.consume, hport]
  rfl

/-- Settles O8: the idle word decodes to `NOP`, and nothing is taken. -/
theorem emptyPortStepsAsNop : Obligations.EmptyPortStepsAsNop := by
  intro s hport
  have hnop : step s = exec .nop s := by
    rw [step_of_decode_ok (i := .nop) (by rw [presented_of_empty hport]; rfl), consume_of_empty hport]
  exact ⟨hnop, hnop.trans (exec_nop s)⟩

/-- Settles O9: the decoder rejects the opcode, and the step on a rejected word is quiet. -/
theorem reservedWordChangesNothing : Obligations.ReservedWordChangesNothing := by
  intro s w hres
  have hd : decode w = .error (.reservedOpcode (opField w)) := decode_error_iff.mpr ⟨hres, rfl⟩
  exact ⟨hd, step_of_decode_error (s := s.present w) hd⟩

/-- What a step can be: the operation that the word decodes to, or the quiet step on a rejected word. -/
theorem step_cases {s t : State} (h : step s = .next t) :
    (∃ i, decode s.presented = .ok i ∧ t = after i s.consume) ∨
      ((∃ r, decode s.presented = .error r) ∧ t = s.consume.quiet) := by
  cases hd : decode s.presented with
  | ok i => exact .inl ⟨i, rfl, (after_eq ((step_of_decode_ok hd).symm.trans h)).symm⟩
  | error r =>
    cases (step_of_decode_error hd).symm.trans h
    exact .inr ⟨⟨r, rfl⟩, rfl⟩

theorem step_next (s : State) : ∃ t, step s = .next t := by
  cases hd : decode s.presented with
  | ok i => exact ⟨_, (step_of_decode_ok hd).trans (exec_eq_next_after i _)⟩
  | error r => exact ⟨_, step_of_decode_error hd⟩

/-- Settles O10: a step that has a next state answers neither a fault nor a refusal. -/
theorem everyStepCompletes : Obligations.EveryStepCompletes := by
  refine ⟨fun i s => ⟨_, exec_eq_next_after i s⟩, step_next, fun _ f => (nomatch f), fun s r h => ?_⟩
  obtain ⟨t, ht⟩ := step_next s
  cases ht.symm.trans h

/-! ### The trigger and the signal -/

/-- Settles O24: `start_pulse` follows its equation, and a rejected word is quiet. -/
theorem startPulseComesFromStartAlone : Obligations.StartPulseComesFromStartAlone := by
  intro s t h
  obtain ⟨i, hd, rfl⟩ | ⟨⟨r, hd⟩, rfl⟩ := step_cases h
  · rw [after_startPulse, startPulseNext_eq_true_iff, hd, Except.ok.injEq]
    rfl
  · simp [hd, Pulses.quiet]

/-- Settles O25: the signal rises in a step with `set`, which stores the last datum in the same step. -/
theorem bufferIsWrittenByTheStepThatSignals : Obligations.BufferIsWrittenByTheStepThatSignals := by
  intro i s t h hlow hhigh
  obtain rfl : after i s = t := after_eq h
  have hset : setCond i s = true := by
    by_contra hno
    have hkept : (after i s).cs = false := after_cs_eq_false (by simpa using hno) hlow
    cases hkept.symm.trans hhigh
  obtain ⟨hA, hci, v, rfl⟩ | ⟨hB, hconv, a, b, c, rfl⟩ := (setCond_eq_true_iff i s).mp hset
  · have hsb : (after (.eoc v) s).sb = s.sb.write .ch2 v := hci ▸ after_eoc_sb v hA
    exact .inl ⟨v, rfl, congrArg (·.read .ch0) hsb, congrArg (·.read .ch1) hsb, congrArg (·.read .ch2) hsb⟩
  · have hafter := after_eq (exec_tc_accepted a b c ⟨hB, hconv⟩)
    refine .inr ⟨a, b, c, rfl, ?_⟩
    rw [hafter]
    exact ⟨rfl, rfl, rfl⟩

/-! ### Reset and the native word -/

/-- Settles O27: the reset state is the one of strap A by its definition. -/
theorem modelResetIsTheStrategyABuild : Obligations.ModelResetIsTheStrategyABuild := ⟨rfl, rfl, rfl, fun _ => rfl⟩

theorem twelve_le_nativeW : 12 ≤ Config.nativeW := Nat.le_add_right 12 Config.nativeExtra

/-- Settles O30: widening keeps the value, and a reading has no bit from 12 up. -/
theorem nativeWordIsRightAligned : Obligations.NativeWordIsRightAligned := by
  refine ⟨twelve_le_nativeW, fun v => ⟨BitVec.toNat_setWidth_of_le twelve_le_nativeW, fun k hk => ?_⟩⟩
  rw [nativeReading, BitVec.getLsbD_setWidth, BitVec.getLsbD_of_ge v k hk, Bool.and_false]

/-! ### The block's invariant (R24) -/

theorem aHit_of_B {i : Instr} {s : State} (hB : s.strategy = .B) : aHit i s = false := by
  rw [← Bool.not_eq_true, aHit_iff, hB]
  simp

theorem bHit_of_A {i : Instr} {s : State} (hA : s.strategy = .A) : bHit i s = false := by
  rw [← Bool.not_eq_true, bHit_iff, hA]
  simp

theorem after_ci_of_B {s : State} (i : Instr) (hB : s.strategy = .B) : (after i s).ci = s.ci :=
  (after_ci i s).trans (channelNext_of_no_hit (aHit_of_B hB))

theorem after_cyc_of_A {s : State} (i : Instr) (hA : s.strategy = .A) : (after i s).cyc = s.cyc :=
  (after_cyc i s).trans (cycleNext_of_A hA)

/-- No operation closes the gate (R86). -/
theorem after_go_of_open {s : State} (i : Instr) (hgo : s.go = true) : (after i s).go = true := by
  rw [after_go, gateNext_eq_true_iff]
  exact .inl hgo

/-- The invariant of R24 is kept by every operation: the dead register by its mask, clause (g) because `CYC` passes
`Armed` through an open gate only. -/
theorem BlockInv.after {s : State} (h : BlockInv s) (i : Instr) : BlockInv (after i s) := by
  obtain ⟨hidle, hch0, hgate⟩ := h
  refine ⟨fun hA => ?_, fun hB => ?_, fun hpast => after_go_of_open i ?_⟩
  · rw [after_strategy] at hA
    rw [after_cyc_of_A i hA, hidle hA]
  · rw [after_strategy] at hB
    rw [after_ci_of_B i hB, hch0 hB]
  · have heffect := after_cycleEffect i s
    generalize (Machine.after i s).cyc = c at hpast heffect
    cases heffect with
    | triggered _ gate => exact gate
    | armed => simp at hpast
    | completed _ _ _ _ hconv => exact hgate (.inl hconv)
    | kept => exact hgate hpast

/-- Settles O31: taking a word and staying quiet move no register, and every operation keeps the invariant. -/
theorem blockInvariantIsKept : Obligations.BlockInvariantIsKept := by
  intro s t hinv h
  have hconsume : BlockInv s.consume := hinv
  obtain ⟨i, -, rfl⟩ | ⟨-, rfl⟩ := step_cases h
  · exact ⟨hconsume.after i, after_strategy i s.consume⟩
  · exact ⟨hinv, rfl⟩

theorem blockInv_resetWith (σ : Strategy) : BlockInv (State.resetWith σ) := by
  simp [BlockInv]

/-- Settles O32: at reset `CYC` is `Idle` and `CI` is 0 in either build. -/
theorem blockInvariantHoldsAtReset : Obligations.BlockInvariantHoldsAtReset :=
  ⟨blockInv_resetWith, blockInv_resetWith .A⟩

/-! ### What only reset undoes (R112) -/

theorem after_cyc_ne_idle {s : State} (i : Instr) (h : s.cyc ≠ .idle) : (after i s).cyc ≠ .idle := by
  have heffect := after_cycleEffect i s
  generalize (after i s).cyc = c at heffect
  cases heffect with
  | triggered | armed | completed => nofun
  | kept => exact h

/-- `CI` moves by counting a live event and in no other way. -/
theorem after_ci_cases (i : Instr) (s : State) :
    (after i s).ci = s.ci ∨ ((after i s).ci = s.ci.succ ∧ ∃ v, i = .eoc v) := by
  rw [after_ci, channelNext]
  split_ifs with ha
  · exact .inr ⟨rfl, ((aHit_iff i s).mp ha).2⟩
  · exact .inl rfl

/-- Settles O33: the three registers of the clauses each have one rule that says how they move. -/
theorem resetIsTheOnlyRecovery : Obligations.ResetIsTheOnlyRecovery := by
  intro s t h
  obtain ⟨i, hd, rfl⟩ | ⟨-, rfl⟩ := step_cases h
  · refine ⟨after_go_of_open (s := s.consume) i, after_cyc_ne_idle (s := s.consume) i, ?_⟩
    obtain hci | ⟨hci, v, rfl⟩ := after_ci_cases i s.consume
    · exact .inl hci
    · exact .inr ⟨by rw [hci, Channel.succ_index]; rfl, v, hd⟩
  · exact ⟨id, id, .inl rfl⟩

/-! ### The gate (R60, R86) -/

/-- Settles O43: no equation but `START`'s reads `GO`, and `READY` alone writes it. -/
theorem gateBlocksNothingButStart : Obligations.GateBlocksNothingButStart := by
  intro i s t g hstart h
  obtain rfl : after i s = t := after_eq h
  rw [exec_eq_next_after, after_eq_datapathNext, after_eq_datapathNext]
  cases i with
  | start => exact absurd rfl hstart
  | nop | ready | eoc _ | arm | tc _ _ _ | clr => rfl

theorem hazardIf_eq_nil {c : Bool} {h : Hazard} : hazardIf c h = [] ↔ c = false := by
  cases c <;> simp [hazardIf]

/-- What a `START` without hazard finds (R117, R119, R121, R122). -/
theorem hazards_start_eq_nil {s : State} (h : hazards .start s = []) :
    s.go = true ∧ s.cs = false ∧ (s.strategy = .B → s.cyc = .armed) := by
  simp only [hazards, List.append_eq_nil_iff, hazardIf_eq_nil] at h
  obtain ⟨⟨⟨hgo, hcs⟩, hunarmed⟩, hflight⟩ := h
  refine ⟨by simpa using hgo, hcs, fun hB => ?_⟩
  cases hcyc : s.cyc <;> simp_all

/-- Settles O50: without a hazard `START` meets an open gate, and in Strategy B an armed block. -/
theorem startWithoutHazardBeginsACycle : Obligations.StartWithoutHazardBeginsACycle := by
  intro s h
  obtain ⟨hgo, hcs, harmed⟩ := hazards_start_eq_nil h
  cases hσ : s.strategy with
  | A => exact ⟨_, exec_start_unarmed hgo (by simp [hσ]), rfl, hcs, rfl, rfl, nofun, fun _ => rfl⟩
  | B => exact ⟨_, exec_start_armed hgo hσ (harmed hσ), rfl, hcs, rfl, rfl, fun _ => ⟨harmed hσ, rfl⟩, nofun⟩

end Sys2Proof.Machine

/-! PROOFS. Sequences of operations: what they keep, where completions come from, and runs that cannot be told apart
(00_scope.md R6, 41_sequencer_ops.md R73, R74, 42_transfer_ops.md R80, R81). -/

namespace Sys2Proof.Machine

/-! ### What every operation of a sequence keeps, the sequence keeps -/

theorem runOps_induction {P : State → Prop} {ops : List Instr} {s : State} (hs : P s)
    (hkept : ∀ i ∈ ops, ∀ t, P t → P (after i t)) : P (runOps ops s) := by
  induction ops generalizing s with
  | nil => exact hs
  | cons i is ih =>
    exact ih (hkept i List.mem_cons_self s hs) (fun j hj => hkept j (List.mem_cons_of_mem i hj))

/-- A fact about every pulse of a sequence, from an invariant of its states. -/
theorem pulseTrace_induction {P : State → Prop} {Q : Pulses → Prop} {ops : List Instr} {s : State} (hs : P s)
    (hkept : ∀ i ∈ ops, ∀ t, P t → P (after i t) ∧ Q (after i t).pulses) : ∀ p ∈ pulseTrace ops s, Q p := by
  induction ops generalizing s with
  | nil => nofun
  | cons i is ih =>
    obtain ⟨hnext, hpulse⟩ := hkept i List.mem_cons_self s hs
    intro p hp
    rw [pulseTrace_cons] at hp
    cases hp with
    | head => exact hpulse
    | tail _ hp => exact ih hnext (fun j hj => hkept j (List.mem_cons_of_mem i hj)) p hp

@[simp] theorem runOps_strategy (ops : List Instr) (s : State) : (runOps ops s).strategy = s.strategy :=
  runOps_induction (P := fun t => t.strategy = s.strategy) rfl (fun i _ t ht => (after_strategy i t).trans ht)

@[simp] theorem runOps_port (ops : List Instr) (s : State) : (runOps ops s).port = s.port :=
  runOps_induction (P := fun t => t.port = s.port) rfl (fun i _ t ht => (after_port i t).trans ht)

/-- Settles O34: each operation leaves the strap and the dead register, so a sequence does. -/
theorem deadStrategyRegisterNeverMoves : Obligations.DeadStrategyRegisterNeverMoves := by
  refine fun ops s => ⟨runOps_strategy ops s, fun hA => ?cyc, fun hB => ?ci⟩
  case cyc =>
    exact (runOps_induction (P := fun t => t.strategy = .A ∧ t.cyc = s.cyc) ⟨hA, rfl⟩
      fun i _ t ⟨hσ, hcyc⟩ => ⟨(after_strategy i t).trans hσ, (after_cyc_of_A i hσ).trans hcyc⟩).2
  case ci =>
    exact (runOps_induction (P := fun t => t.strategy = .B ∧ t.ci = s.ci) ⟨hB, rfl⟩
      fun i _ t ⟨hσ, hci⟩ => ⟨(after_strategy i t).trans hσ, (after_ci_of_B i hσ).trans hci⟩).2

/-! ### Words and operations (R45) -/

/-- The step at a port with an encoded operation in front runs it and leaves the other words. -/
theorem step_encoded (i : Instr) (ws : List OpWord) (s : State) :
    step { s with port := encode i :: ws } = .next { after i s with port := ws } := by
  rw [← after_with_port]
  exact (step_of_decode_ok (s := { s with port := encode i :: ws }) (decode_encode i)).trans (exec_eq_next_after i _)

theorem run_succ {k : Nat} {s t : State} (h : step s = .next t) :
    Host.Core.run core (k + 1) s = Host.Core.run core k t := by
  have hcore : core.step s = .next t := h
  simp only [Host.Core.run, hcore]

theorem run_encoded (ops : List Instr) (s : State) :
    Host.Core.run core ops.length { s with port := ops.map encode } = .next { runOps ops s with port := [] } := by
  induction ops generalizing s with
  | nil => rfl
  | cons i is ih =>
    rw [List.length_cons, List.map_cons, run_succ (step_encoded i (is.map encode) s)]
    exact ih (after i s)

/-- Settles O35: one word is one step, and the operations never see the words that wait. -/
theorem runOfWordsIsRunOfOperations : Obligations.RunOfWordsIsRunOfOperations := by
  intro ops s
  have hport : (runOps ops { s with port := [] }).port = [] := runOps_port ops _
  refine ⟨?_, hport⟩
  have hrun := run_encoded ops { s with port := [] }
  rw [hrun]
  exact congrArg _ (State.eq_of_fields rfl rfl rfl rfl rfl rfl rfl rfl rfl hport.symm)

/-! ### The latch along a sequence (R26, R63) -/

theorem after_clr (s : State) : after .clr s = s.quiet.clearCompletion := after_eq (exec_clr s)

theorem after_arm_of_B {s : State} (hB : s.strategy = .B) : after .arm s = s.quiet.setCycle .armed :=
  after_eq (by rw [exec_arm, if_pos hB])

/-- Nothing but `CLR` takes the signal down. -/
theorem after_cs_of_up {i : Instr} {s : State} (hclr : i ≠ .clr) (hcs : s.cs = true) : (after i s).cs = true := by
  cases hset : setCond i s with
  | true => exact after_cs_of_set hset
  | false => exact (after_cs_of_kept hset hclr).trans hcs

theorem runOps_cs_of_up {ops : List Instr} {s : State} (hclr : Instr.clr ∉ ops) (hcs : s.cs = true) :
    (runOps ops s).cs = true :=
  runOps_induction (P := fun t => t.cs = true) hcs
    fun _ hi _ ht => after_cs_of_up (fun he => hclr (he ▸ hi)) ht

/-- A signal that is up shows no edge (R26). -/
theorem after_doneRise_of_up {s : State} (i : Instr) (hcs : s.cs = true) : (after i s).pulses.doneRise = false := by
  simp [after_doneRise, doneRiseNext, hcs]

/-! ### Strategy A: events with other operations between them (R73, R74) -/

/-- Strategy A, the buffer holding `b` and the sequencer at `c`. -/
structure SequencerAt (b : SampleBuffer) (c : Channel) (s : State) : Prop where
  strategy : s.strategy = .A
  sb : s.sb = b
  ci : s.ci = c

theorem SequencerAt.eoc {b : SampleBuffer} {c : Channel} {s : State} (h : SequencerAt b c s) (v : Reading) :
    SequencerAt (b.write c v) c.succ (after (.eoc v) s) where
  strategy := (after_strategy _ s).trans h.strategy
  sb := by rw [after_eoc_sb v h.strategy, h.sb, h.ci]
  ci := by rw [after_eoc_ci v h.strategy, h.ci]

theorem aHit_of_ne_eoc {i : Instr} {s : State} (h : ∀ v, i ≠ .eoc v) : aHit i s = false := by
  rw [← Bool.not_eq_true, aHit_iff]
  rintro ⟨-, v, hi⟩
  exact h v hi

/-- In Strategy A nothing but an event writes the buffer or moves the sequencer. -/
theorem SequencerAt.runOps {b : SampleBuffer} {c : Channel} {ops : List Instr} {s : State} (h : SequencerAt b c s)
    (hno : ∀ v, Instr.eoc v ∉ ops) : SequencerAt b c (runOps ops s) :=
  runOps_induction h fun i hi t ⟨hA, hsb, hci⟩ => by
    have ha : aHit i t = false := aHit_of_ne_eoc fun v hv => hno v (hv ▸ hi)
    exact ⟨(after_strategy i t).trans hA, (after_sb_of_no_hit ha (bHit_of_A hA)).trans hsb,
      (after_ci i t).trans ((channelNext_of_no_hit ha).trans hci)⟩

/-- Three stores at a channel and its successors fill the three slots. -/
theorem SampleBuffer.read_write_cycle (b : SampleBuffer) (c : Channel) (v0 v1 v2 : Reading) :
    (((b.write c v0).write c.succ v1).write c.succ.succ v2).read c = v0 ∧
    (((b.write c v0).write c.succ v1).write c.succ.succ v2).read c.succ = v1 ∧
    (((b.write c v0).write c.succ v1).write c.succ.succ v2).read c.succ.succ = v2 := by
  cases c <;> exact ⟨rfl, rfl, rfl⟩

/-- Settles O36: each event stores where the sequencer stands and moves it on; what comes between does neither. -/
theorem threeEventsFillTheBuffer : Obligations.ThreeEventsFillTheBuffer := by
  intro s v0 v1 v2 l0 l1 l2 l3 hA h0 h1 h2 h3 t ht
  simp only [runOps_append, runOps_cons] at ht
  subst ht
  have hthird := ((((SequencerAt.mk hA rfl rfl).runOps h0).eoc v0).runOps h1 |>.eoc v1).runOps h2
  have hend := (hthird.eoc v2).runOps h3
  obtain ⟨hr0, hr1, hr2⟩ := s.sb.read_write_cycle s.ci v0 v1 v2
  rw [State.slot, State.slot, State.slot, hend.sb, hend.ci, Channel.succ_succ_succ]
  refine ⟨hr0, hr1, hr2, rfl, fun hci hclr => runOps_cs_of_up hclr ?_⟩
  rw [after_eoc_cs v2 hthird.strategy, hthird.ci, hci]
  rfl

/-- Settles O37: the slot written is the one `CI` names, and a signal that is up stays up, without an edge, until
`CLR`. -/
theorem strayEventsCorruptAndAreNotCounted : Obligations.StrayEventsCorruptAndAreNotCounted := by
  intro s x y z hA hci hcs
  have hevent := (SequencerAt.mk hA rfl hci).eoc x
  refine ⟨hevent.sb, hevent.ci, runOps_cs_of_up (by simp) hcs, ?_, runOps_cs_of_up (by simp) hcs, ?_⟩
  · refine pulseTrace_induction (P := fun t => t.cs = true) hcs fun i hi t ht =>
      ⟨after_cs_of_up (fun he => ?_) ht, after_doneRise_of_up i ht⟩
    subst he
    simp at hi
  · exact congrArg State.cs (after_clr (runOps [.eoc x, .eoc y, .eoc z] s))

/-- Settles O38: from `CI = 1` the second event finds `CI = 2`, the third slot 0. -/
theorem misalignmentPersists : Obligations.MisalignmentPersists := by
  intro s v0 v1 v2 hA hci
  have hbegin : SequencerAt s.sb .ch1 (runOps [.clr, .start] s) := (SequencerAt.mk hA rfl hci).runOps (by simp)
  have hfirst := hbegin.eoc v0
  have hsecond := hfirst.eoc v1
  have hthird := hsecond.eoc v2
  have hlow : (runOps [.clr, .start] s).cs = false := after_cs_eq_false rfl (congrArg State.cs (after_clr s))
  refine ⟨?_, ?_, hsecond.sb, hthird.sb, hthird.ci⟩
  · exact (after_eoc_cs v0 hbegin.strategy).trans (by rw [hbegin.ci, hlow]; rfl)
  · exact (after_eoc_cs v1 hfirst.strategy).trans (by rw [hfirst.ci]; rfl)

/-! ### Strategy B: where completions come from (R80, R81) -/

/-- In Strategy B the latch is set by a block accepted in `Converting` only. -/
theorem setCond_iff_of_B {i : Instr} {s : State} (hB : s.strategy = .B) :
    setCond i s = true ↔ s.cyc = .converting ∧ ∃ a b c, i = .tc a b c := by
  simp [setCond_eq_true_iff, hB]

/-- How many completions are still to come while no `ARM` is given: one if a copy is armed or in flight. -/
def completionsDue (s : State) : Nat :=
  match s.cyc with
  | .idle => 0
  | .armed => 1
  | .converting => 1
  | .complete => 0

/-- Without `ARM` no operation makes a completion due, and the one that sets the latch uses it up. -/
theorem completionsDue_after {i : Instr} {s : State} (hB : s.strategy = .B) (harm : i ≠ .arm) :
    (if setCond i s then 1 else 0) + completionsDue (after i s) ≤ completionsDue s := by
  split_ifs with hset
  · obtain ⟨hconv, a, b, c, rfl⟩ := (setCond_iff_of_B hB).mp hset
    have hcomplete : (after (.tc a b c) s).cyc = .complete :=
      congrArg State.cyc (after_eq (exec_tc_accepted a b c ⟨hB, hconv⟩))
    simp [completionsDue, hconv, hcomplete]
  · have heffect := after_cycleEffect i s
    rw [Nat.zero_add]
    unfold completionsDue
    generalize (after i s).cyc = c at heffect
    cases heffect with
    | triggered _ _ harmed => simp [harmed]
    | armed hi => exact absurd hi harm
    | completed => exact Nat.zero_le _
    | kept => exact le_refl _

theorem setCount_le_completionsDue {ops : List Instr} {s : State} (hB : s.strategy = .B) (harm : Instr.arm ∉ ops) :
    setCount ops s ≤ completionsDue s := by
  induction ops generalizing s with
  | nil => exact Nat.zero_le _
  | cons i is ih =>
    rw [List.mem_cons, not_or] at harm
    have hrest := ih ((after_strategy i s).trans hB) harm.2
    have hfirst := completionsDue_after hB (Ne.symm harm.1)
    rw [setCount]
    omega

/-- Settles O40: the completions due bound the steps with `set`. -/
theorem oneCompletionPerArming : Obligations.OneCompletionPerArming := by
  intro ops s hB harm
  have hle := setCount_le_completionsDue hB harm
  refine ⟨hle.trans ?_, ?_⟩
  · cases hcyc : s.cyc <;> simp [completionsDue, hcyc]
  · rintro (hcyc | hcyc) <;> simpa [completionsDue, hcyc] using hle

/-- A `START` through the open gate on an armed block, and no `ARM` after it. -/
def TriggeredPath (ops : List Instr) (s : State) : Prop :=
  ∃ pre mid, ops = pre ++ .start :: mid ∧ Instr.arm ∈ pre ∧ Instr.arm ∉ mid ∧ (runOps pre s).go = true ∧
    (runOps pre s).cyc = .armed

/-- A triggered path that a block then ended. -/
def CompletedPath (ops : List Instr) (s : State) : Prop :=
  ∃ path a b c post, ops = path ++ .tc a b c :: post ∧ TriggeredPath path s

theorem runOps_concat (ops : List Instr) (i : Instr) (s : State) : runOps (ops ++ [i]) s = after i (runOps ops s) :=
  runOps_append ops [i] s

/-- From a state that is not armed, `Armed` is reached by an `ARM` only. -/
theorem arm_mem_of_armed {ops : List Instr} {s : State} (hs : s.cyc ≠ .armed) (h : (runOps ops s).cyc = .armed) :
    Instr.arm ∈ ops := by
  by_contra harm
  refine runOps_induction (P := fun t => t.cyc ≠ .armed) hs (fun i hi t ht => ?_) h
  have heffect := after_cycleEffect i t
  generalize (after i t).cyc = c at heffect
  cases heffect with
  | triggered | completed => nofun
  | armed hi' => exact absurd (hi' ▸ hi) harm
  | kept => exact ht

/-- `Converting` is entered by the trigger on an armed block, and an `ARM` would have left it. -/
theorem triggeredPath_of_converting {ops : List Instr} {s : State} (hB : s.strategy = .B) (hs : s.cyc = .idle)
    (h : (runOps ops s).cyc = .converting) : TriggeredPath ops s := by
  induction ops using List.reverseRecOn with
  | nil => cases hs.symm.trans h
  | append_singleton is i ih =>
    rw [runOps_concat] at h
    by_cases hi : i = .arm
    · subst hi
      rw [after_arm_of_B ((runOps_strategy is s).trans hB)] at h
      cases h
    have heffect := after_cycleEffect i (runOps is s)
    rw [h] at heffect
    generalize hc : CycleState.converting = c at heffect
    cases heffect with
    | triggered op gate armed =>
      exact ⟨is, [], by rw [op], arm_mem_of_armed (by simp [hs]) armed, List.not_mem_nil, gate, armed⟩
    | armed | completed => cases hc
    | kept =>
      obtain ⟨pre, mid, rfl, hpre, hmid, hgo, harmed⟩ := ih hc.symm
      exact ⟨pre, mid ++ [i], by simp, hpre, by simp [hmid, Ne.symm hi], hgo, harmed⟩

/-- A signal that is up was raised by a block that ended a triggered path. -/
theorem completedPath_of_up {ops : List Instr} {s : State} (hB : s.strategy = .B) (hs : s.cyc = .idle)
    (hcs : s.cs = false) (h : (runOps ops s).cs = true) : CompletedPath ops s := by
  induction ops using List.reverseRecOn with
  | nil => cases hcs.symm.trans h
  | append_singleton is i ih =>
    rw [runOps_concat] at h
    cases hset : setCond i (runOps is s) with
    | true =>
      obtain ⟨hconv, a, b, c, rfl⟩ := (setCond_iff_of_B (by rw [runOps_strategy, hB])).mp hset
      exact ⟨is, a, b, c, [], rfl, triggeredPath_of_converting hB hs hconv⟩
    | false =>
      have hup : (runOps is s).cs = true := by
        by_contra hlow
        cases (after_cs_eq_false hset (by simpa using hlow)).symm.trans h
      obtain ⟨path, a, b, c, post, rfl, hpath⟩ := ih hup
      exact ⟨path, a, b, c, post ++ [i], by simp, hpath⟩

/-- Settles O41: the block that raised the signal ended a path that an effective `START` had begun. -/
theorem onlyPathToCompletionInStrategyB : Obligations.OnlyPathToCompletionInStrategyB := by
  intro ops h
  obtain ⟨path, a, b, c, post, rfl, pre, mid, rfl, hpre, hmid, hgo, harmed⟩ := completedPath_of_up rfl rfl rfl h
  exact ⟨pre, mid, post, a, b, c, by simp, hpre, hmid, hgo, harmed⟩

/-! ### The gate along a sequence (R60, R86) -/

theorem after_startPulse_of_ne_start {i : Instr} {s : State} (h : i ≠ .start) :
    (after i s).pulses.startPulse = false := by
  rw [← Bool.not_eq_true, after_startPulse, startPulseNext_eq_true_iff]
  exact fun hstart => h hstart.1

theorem after_startPulse_of_shut {s : State} (i : Instr) (hgo : s.go = false) :
    (after i s).pulses.startPulse = false := by
  rw [← Bool.not_eq_true, after_startPulse, startPulseNext_eq_true_iff, hgo]
  simp

/-- Only `READY` opens the gate. -/
theorem after_go_of_shut {i : Instr} {s : State} (hi : i ≠ .ready) (hgo : s.go = false) : (after i s).go = false := by
  rw [← Bool.not_eq_true, after_go, gateNext_eq_true_iff, hgo]
  simpa using hi

/-- The gate shut and no cycle past `Armed`. -/
structure GateShut (s : State) : Prop where
  go : s.go = false
  notConverting : s.cyc ≠ .converting
  notComplete : s.cyc ≠ .complete

theorem GateShut.after {i : Instr} {s : State} (h : GateShut s) (hi : i ≠ .ready) : GateShut (after i s) := by
  obtain ⟨hgo, hconv, hcomp⟩ := h
  have heffect := after_cycleEffect i s
  have hshut := after_go_of_shut hi hgo
  suffices (Machine.after i s).cyc ≠ .converting ∧ (Machine.after i s).cyc ≠ .complete from ⟨hshut, this.1, this.2⟩
  generalize (Machine.after i s).cyc = c at heffect
  cases heffect with
  | triggered _ gate => cases hgo.symm.trans gate
  | armed => exact ⟨nofun, nofun⟩
  | completed _ _ _ _ converting => exact absurd converting hconv
  | kept => exact ⟨hconv, hcomp⟩

/-- A step without `set` that finds an empty buffer and no signal leaves both so. -/
theorem after_empty {i : Instr} {s : State} (ha : aHit i s = false) (hb : bHit i s = false) (hcs : s.cs = false) :
    (after i s).cs = false ∧ (after i s).sb = s.sb :=
  ⟨after_cs_eq_false (by rw [setCond_eq, ha, hb]; rfl) hcs, after_sb_of_no_hit ha hb⟩

theorem bHit_of_not_converting {i : Instr} {s : State} (h : s.cyc ≠ .converting) : bHit i s = false := by
  rw [← Bool.not_eq_true, bHit_iff]
  exact fun hacc => h hacc.1.2

/-- Settles O42: behind a shut gate `CYC` stays below `Converting`, so that no trigger is raised and no block
accepted. -/
theorem closedGateBlocksEveryCycle : Obligations.ClosedGateBlocksEveryCycle := by
  intro σ ops hready
  have hreset : GateShut (State.resetWith σ) := ⟨rfl, nofun, nofun⟩
  have hkept : ∀ i ∈ ops, ∀ t, GateShut t → GateShut (after i t) := fun i hi t ht => ht.after fun he => hready (he ▸ hi)
  have hend := runOps_induction hreset hkept
  refine ⟨pulseTrace_induction hreset fun i hi t ht => ⟨hkept i hi t ht, after_startPulse_of_shut i ht.go⟩,
    fun _ => ⟨hend.notConverting, hend.notComplete⟩, fun hno => ?_⟩
  refine (runOps_induction (P := fun t => GateShut t ∧ t.strategy = σ ∧ t.cs = false ∧ t.sb = ⟨0#12, 0#12, 0#12⟩)
    ⟨hreset, rfl, rfl, rfl⟩ fun i hi t ⟨ht, hσ, hcs, hsb⟩ => ?_).2.2
  have ha : aHit i t = false := by
    obtain hB | hno := hno
    · exact aHit_of_B (hσ.trans hB)
    · exact aHit_of_ne_eoc fun v hv => hno v (hv ▸ hi)
  obtain ⟨hcs', hsb'⟩ := after_empty ha (bHit_of_not_converting ht.notConverting) hcs
  exact ⟨hkept i hi t ht, (after_strategy i t).trans hσ, hcs', hsb'.trans hsb⟩

/-- Without `START` the arbiter does not go to `Converting`. -/
theorem after_cyc_ne_converting {i : Instr} {s : State} (hi : i ≠ .start) (h : s.cyc ≠ .converting) :
    (after i s).cyc ≠ .converting := by
  have heffect := after_cycleEffect i s
  generalize (after i s).cyc = c at heffect
  cases heffect with
  | triggered op => exact absurd op hi
  | armed | completed => nofun
  | kept => exact h

/-- Settles O44: the dropped `START` leaves the state quiet, and only a `START` triggers. -/
theorem droppedStartIsNotReplayed : Obligations.DroppedStartIsNotReplayed := by
  intro s ops hgo hstart
  have hdropped : after .start s = s.quiet := after_eq (exec_start_dropped hgo)
  have hne : ∀ i ∈ ops, i ≠ .start := fun i hi he => hstart (he ▸ hi)
  rw [pulseTrace_cons, runOps_cons, hdropped]
  refine ⟨fun p hp => ?_, fun hconv => ?_⟩
  · cases hp with
    | head => rfl
    | tail _ hp =>
      exact pulseTrace_induction (P := fun _ => True) (Q := fun p => p.startPulse = false) trivial
        (fun i hi t _ => ⟨trivial, after_startPulse_of_ne_start (hne i hi)⟩) p hp
  · exact runOps_induction (P := fun t => t.cyc ≠ .converting) hconv
      fun i hi t ht => after_cyc_ne_converting (hne i hi) ht

/-! ### Losing a cycle (R120, R76) -/

/-- Strategy B with a copy armed, the buffer holding `b`. -/
structure CopyArmed (b : SampleBuffer) (s : State) : Prop where
  strategy : s.strategy = .B
  cyc : s.cyc = .armed
  sb : s.sb = b

theorem after_cyc_of_armed {i : Instr} {s : State} (hi : i ≠ .start) (h : s.cyc = .armed) :
    (after i s).cyc = .armed := by
  have heffect := after_cycleEffect i s
  generalize (after i s).cyc = c at heffect
  cases heffect with
  | triggered op => exact absurd op hi
  | armed => rfl
  | completed _ _ _ _ hconv => cases h.symm.trans hconv
  | kept => exact h

/-- An armed block stores nothing and does not set the latch; only `START` takes it out of `Armed`. -/
theorem CopyArmed.after {b : SampleBuffer} {i : Instr} {s : State} (h : CopyArmed b s) (hi : i ≠ .start) :
    CopyArmed b (after i s) ∧ (s.cs = false → (after i s).cs = false) := by
  obtain ⟨hB, harmed, hsb⟩ := h
  have ha : aHit i s = false := aHit_of_B hB
  have hb : bHit i s = false := bHit_of_not_converting (by simp [harmed])
  exact ⟨⟨(after_strategy i s).trans hB, after_cyc_of_armed hi harmed, (after_sb_of_no_hit ha hb).trans hsb⟩,
    fun hcs => (after_empty ha hb hcs).1⟩

/-- Settles O49: `ARM` takes the flight back to `Armed`, where no block is accepted until a `START`. -/
theorem armWhileConvertingLosesTheCycle : Obligations.ArmWhileConvertingLosesTheCycle := by
  intro s mid hB hconv hstart
  rw [runOps_cons, after_arm_of_B hB]
  obtain ⟨hend, hcs⟩ := runOps_induction (ops := mid) (s := s.quiet.setCycle .armed)
    (P := fun t => CopyArmed s.sb t ∧ (s.cs = false → t.cs = false)) ⟨⟨hB, rfl, rfl⟩, id⟩ fun i hi t ⟨ht, hlow⟩ => by
      obtain ⟨hnext, hkept⟩ := ht.after fun he => hstart (he ▸ hi)
      exact ⟨hnext, fun hcs => hkept (hlow hcs)⟩
  exact ⟨hend.sb, hend.cyc, hcs⟩

/-! ### Runs that cannot be told apart (R80, R88) -/

/-- No equation distinguishes `Idle` from `Complete`: each asks for `Armed` or for `Converting`. -/
theorem CycleAlike.armed_iff {a b : CycleState} (h : CycleAlike a b) : a = .armed ↔ b = .armed := by
  obtain rfl | ⟨rfl, rfl⟩ | ⟨rfl, rfl⟩ := h <;> simp

theorem CycleAlike.converting_iff {a b : CycleState} (h : CycleAlike a b) : a = .converting ↔ b = .converting := by
  obtain rfl | ⟨rfl, rfl⟩ | ⟨rfl, rfl⟩ := h <;> simp

/-- `CYC`'s equation takes alike states to alike states. -/
theorem CycleAlike.cycleNext {s t : State} (h : CycleAlike s.cyc t.cyc) (hgo : s.go = t.go)
    (hσ : s.strategy = t.strategy) (i : Instr) : CycleAlike (cycleNext i s) (cycleNext i t) := by
  have harmed := h.armed_iff
  have hconv := h.converting_iff
  unfold Machine.cycleNext
  rw [hσ]
  by_cases hA : t.strategy = .A
  · simpa [hA] using h
  · rw [if_neg hA, if_neg hA]
    cases i with
    | nop | ready | eoc | clr => exact h
    | arm => exact .inl rfl
    | start =>
      dsimp only
      simp only [hgo, harmed]
      split_ifs
      · exact .inl rfl
      · exact h
    | tc =>
      dsimp only
      simp only [hconv]
      split_ifs
      · exact .inl rfl
      · exact h

/-- What an operation's stores and its latch condition read of a state. -/
theorem hits_congr {i : Instr} {s t : State} (hσ : s.strategy = t.strategy)
    (hconv : s.cyc = .converting ↔ t.cyc = .converting) : aHit i s = aHit i t ∧ bHit i s = bHit i t := by
  cases i <;> simp [aHit, bHit, hσ, hconv]

/-- The pulses read `CI`, `CS`, `GO`, the strap, and of `CYC` whether it is `Converting`. -/
theorem after_pulses_congr {i : Instr} {s t : State} (hci : s.ci = t.ci) (hcs : s.cs = t.cs) (hgo : s.go = t.go)
    (hσ : s.strategy = t.strategy) (hconv : s.cyc = .converting ↔ t.cyc = .converting) :
    (after i s).pulses = (after i t).pulses := by
  obtain ⟨ha, hb⟩ := hits_congr (i := i) hσ hconv
  have hstart : startPulseNext i s = startPulseNext i t := by cases i <;> simp [startPulseNext, hgo]
  simp [after_pulses, hstart, doneRiseNext, setCond_eq, weVector, weBit, ha, hb, hci, hcs]

theorem after_flags_congr {i : Instr} {s t : State} (hci : s.ci = t.ci) (hcs : s.cs = t.cs) (hgo : s.go = t.go)
    (hσ : s.strategy = t.strategy) (hconv : s.cyc = .converting ↔ t.cyc = .converting) :
    (after i s).ci = (after i t).ci ∧ (after i s).cs = (after i t).cs ∧ (after i s).go = (after i t).go := by
  obtain ⟨ha, hb⟩ := hits_congr (i := i) hσ hconv
  have hgate : gateNext i s = gateNext i t := by cases i <;> simp [gateNext, hgo]
  simp [after_ci, after_cs, after_go, channelNext, completionNext, setCond_eq, ha, hb, hci, hcs, hgate]

theorem after_sb_congr {i : Instr} {s t : State} (hsb : s.sb = t.sb) (hci : s.ci = t.ci)
    (hσ : s.strategy = t.strategy) (hconv : s.cyc = .converting ↔ t.cyc = .converting) :
    (after i s).sb = (after i t).sb := by
  obtain ⟨ha, hb⟩ := hits_congr (i := i) hσ hconv
  simp [after_eq_datapathNext, datapathNext, slotNext, weBit, State.slot, ha, hb, hsb, hci, hσ]

theorem AlikeButCycle.after {s t : State} (h : AlikeButCycle s t) (i : Instr) :
    AlikeButCycle (after i s) (after i t) ∧ (after i s).pulses = (after i t).pulses := by
  obtain ⟨hsb, hci, hcs, hcyc, hgo, hσ⟩ := h
  obtain ⟨hci', hcs', hgo'⟩ := after_flags_congr (i := i) hci hcs hgo hσ hcyc.converting_iff
  refine ⟨⟨after_sb_congr hsb hci hσ hcyc.converting_iff, hci', hcs', ?_, hgo', ?_⟩,
    after_pulses_congr hci hcs hgo hσ hcyc.converting_iff⟩
  · rw [after_cyc, after_cyc]
    exact hcyc.cycleNext hgo hσ i
  · rw [after_strategy, after_strategy, hσ]

/-- Settles O45: one operation keeps two states alike and gives them the same pulses, so a sequence does. -/
theorem idleAndCompleteBehaveAlike : Obligations.IdleAndCompleteBehaveAlike := by
  intro ops
  induction ops with
  | nil => exact fun s t h => ⟨h, rfl⟩
  | cons i is ih =>
    intro s t h
    obtain ⟨halike, hpulses⟩ := h.after i
    obtain ⟨hend, htrace⟩ := ih _ _ halike
    exact ⟨hend, by rw [pulseTrace_cons, pulseTrace_cons, hpulses, htrace]⟩

/-- The operation with its readings blanked out. -/
def blankReadings : Instr → Instr
  | .nop => .nop
  | .ready => .ready
  | .start => .start
  | .eoc _ => .eoc 0#12
  | .arm => .arm
  | .tc _ _ _ => .tc 0#12 0#12 0#12
  | .clr => .clr

/-- The word of a blanked operation shows its opcode and nothing else. -/
theorem encode_blankReadings (i : Instr) :
    encode (blankReadings i) = packWord (opcodeOf i) 0#12 0#12 0#12 := by
  cases i with
  | nop | ready | start | eoc _ | arm | tc _ _ _ | clr => rfl

theorem blankReadings_congr {i j : Instr} (h : opcodeOf i = opcodeOf j) : blankReadings i = blankReadings j := by
  have hword : encode (blankReadings i) = encode (blankReadings j) := by
    rw [encode_blankReadings, encode_blankReadings, h]
  have hdecode := decode_encode (blankReadings i)
  rw [hword, decode_encode, Except.ok.injEq] at hdecode
  exact hdecode.symm

theorem SameControl.trans {s t u : State} (h : SameControl s t) (h' : SameControl t u) : SameControl s u := by
  obtain ⟨hci, hcs, hcyc, hgo, hσ⟩ := h
  obtain ⟨hci', hcs', hcyc', hgo', hσ'⟩ := h'
  exact ⟨hci.trans hci', hcs.trans hcs', hcyc.trans hcyc', hgo.trans hgo', hσ.trans hσ'⟩

theorem SameControl.symm {s t : State} (h : SameControl s t) : SameControl t s := by
  obtain ⟨hci, hcs, hcyc, hgo, hσ⟩ := h
  exact ⟨hci.symm, hcs.symm, hcyc.symm, hgo.symm, hσ.symm⟩

/-- Only the write data read the readings (R32). -/
theorem after_blankReadings (i : Instr) (s : State) :
    SameControl (after (blankReadings i) s) (after i s) ∧ (after (blankReadings i) s).pulses = (after i s).pulses := by
  rw [after_eq_datapathNext, after_eq_datapathNext]
  cases i with
  | nop | ready | start | eoc _ | arm | tc _ _ _ | clr => exact ⟨⟨rfl, rfl, rfl, rfl, rfl⟩, rfl⟩

/-- No equation but the slots' reads the buffer. -/
theorem SameControl.after {s t : State} (h : SameControl s t) (i : Instr) :
    SameControl (after i s) (after i t) ∧ (after i s).pulses = (after i t).pulses := by
  obtain ⟨hci, hcs, hcyc, hgo, hσ⟩ := h
  have hconv : s.cyc = .converting ↔ t.cyc = .converting := by rw [hcyc]
  obtain ⟨hci', hcs', hgo'⟩ := after_flags_congr (i := i) hci hcs hgo hσ hconv
  refine ⟨⟨hci', hcs', ?_, hgo', ?_⟩, after_pulses_congr hci hcs hgo hσ hconv⟩
  · simp [after_cyc, cycleNext, hσ, hgo, hcyc]
  · rw [after_strategy, after_strategy, hσ]

theorem SameControl.after_opcode {s t : State} {i j : Instr} (h : SameControl s t) (hop : opcodeOf i = opcodeOf j) :
    SameControl (Machine.after i s) (Machine.after j t) ∧
      (Machine.after i s).pulses = (Machine.after j t).pulses := by
  obtain ⟨hi, hpi⟩ := after_blankReadings i s
  obtain ⟨hj, hpj⟩ := after_blankReadings j t
  rw [← blankReadings_congr hop] at hj hpj
  obtain ⟨hst, hpst⟩ := h.after (blankReadings i)
  exact ⟨(hi.symm.trans hst).trans hj, (hpi.symm.trans hpst).trans hpj⟩

/-- Settles O46: a step's control sees the opcode and the control of the state before it. -/
theorem readingsNeverInfluenceControl : Obligations.ReadingsNeverInfluenceControl := by
  intro ops
  induction ops with
  | nil =>
    intro ops' s t hops h
    obtain rfl : ops' = [] := List.map_eq_nil_iff.mp hops.symm
    exact ⟨h, rfl⟩
  | cons i is ih =>
    intro ops' s t hops h
    cases ops' with
    | nil => cases hops
    | cons j js =>
      obtain ⟨hop, hrest⟩ := List.cons.inj hops
      obtain ⟨hnext, hpulses⟩ := h.after_opcode hop
      obtain ⟨hend, htrace⟩ := ih js _ _ hrest hnext
      exact ⟨hend, by rw [pulseTrace_cons, pulseTrace_cons, hpulses, htrace]⟩

/-! ### `consumeAndReset` and a `CLR` that meets an event (R56, R64, R98) -/

theorem runOps_consumeAndReset_of_A {s : State} (hA : s.strategy = .A) :
    runOps (consumeAndResetOps s.strategy) s = s.quiet.clearCompletion := by
  rw [hA, consumeAndResetOps, runOps_cons, after_clr, runOps_nil]

theorem runOps_consumeAndReset_of_B {s : State} (hB : s.strategy = .B) :
    runOps (consumeAndResetOps s.strategy) s = s.quiet.clearCompletion.quiet.setCycle .armed := by
  rw [hB, consumeAndResetOps, runOps_cons, after_clr, runOps_cons,
    after_arm_of_B (s := s.quiet.clearCompletion) hB, runOps_nil]

/-- Settles O47: the second call writes to `CS` and `CYC` what the first one left there. -/
theorem consumeAndResetIsIdempotent : Obligations.ConsumeAndResetIsIdempotent := by
  rintro s r rfl
  cases hσ : s.strategy with
  | A =>
    rw [← hσ, runOps_consumeAndReset_of_A hσ, runOps_consumeAndReset_of_A (s := s.quiet.clearCompletion) hσ]
    exact ⟨rfl, rfl, by simp [hσ], rfl, rfl, rfl, rfl, rfl, rfl, rfl, rfl⟩
  | B =>
    rw [← hσ, runOps_consumeAndReset_of_B hσ,
      runOps_consumeAndReset_of_B (s := s.quiet.clearCompletion.quiet.setCycle .armed) hσ]
    exact ⟨rfl, rfl, fun _ => rfl, rfl, rfl, rfl, rfl, rfl, rfl, rfl, rfl⟩

/-- Settles O48: the `CLR` comes last, and neither it nor a `READY` writes the buffer, `CI` or `CYC`. -/
theorem clrMeetingAnEventErasesTheCompletion : Obligations.ClrMeetingAnEventErasesTheCompletion := by
  rintro s e ready - (rfl | rfl)
  · exact ⟨rfl, rfl, rfl, rfl⟩
  · exact ⟨rfl, rfl, rfl, rfl⟩

end Sys2Proof.Machine

/-! PROOFS. The block with its neighbours: what each move does, and the protocol's invariant
(60_exceptions.md R98 to R107). -/

namespace Sys2Proof.Machine

/-! ### The moves, one case for each (R100 to R103) -/

/-- A presented operation is run by the step that takes it. -/
theorem blockStep_eq_after (i : Instr) (s : State) : blockStep i s = after i s := by
  have hstep : step (s.present (encode i)) = exec i s :=
    step_of_decode_ok (s := s.present (encode i)) (decode_encode i)
  rw [blockStep, hstep]
  rfl

theorem System.offer_eq (i : Instr) (y : System) : y.offer i = { y with block := after i y.block } := by
  rw [System.offer, blockStep_eq_after]

/-- What each move does, and when its agent has it. -/
inductive Moved (y : System) : Move → System → Prop
  | idle : Moved y .idle { y with block := after .nop y.block }
  | ready : Moved y .ready { y with block := after .ready y.block, converter := y.converter.afterReady }
  | eoc (v : Reading) (c : Channel) (notify : y.notify = .A) (converter : y.converter = .scanning c) :
    Moved y (.eoc v)
      { y with block := after (.eoc v) y.block, converter := Converter.afterEvent c, cycle := y.cycle ++ [v] }
  | tc (a b c : Reading) (notify : y.notify = .B) (converter : y.converter = .copying) :
    Moved y (.tc a b c) { y with block := after (.tc a b c) y.block, converter := .idle, cycle := [a, b, c] }
  | scanEnds (converter : y.converter = .unmoved) : Moved y .scanEnds { y with converter := .idle }
  | bootArm (r : Bool) (host : y.host = .boot false r) :
    Moved y .hostArm { y with block := after .arm y.block, host := bootPhase true r }
  | rearm (host : y.host = .rearm) : Moved y .hostArm { y with block := after .arm y.block, host := .start }
  | pollOpen (a : Bool) (host : y.host = .boot a false) (gate : y.block.go = true) :
    Moved y .hostPoll { y with host := bootPhase a true }
  | pollShut (a : Bool) (host : y.host = .boot a false) (gate : y.block.go = false) : Moved y .hostPoll y
  | pollDone (host : y.host = .waitDone) (done : y.block.cs = true) : Moved y .hostPoll { y with host := .consume }
  | pollNotDone (host : y.host = .waitDone) (done : y.block.cs = false) : Moved y .hostPoll y
  | start (c : Converter) (host : y.host = .start)
      (converter : converterAfterStart y.notify y.block (after .start y.block) y.converter = some c) :
    Moved y .hostStart { y with block := after .start y.block, host := .waitDone, converter := c, cycle := [] }
  | read (host : y.host = .consume) : Moved y .hostRead { y with host := .clear, taken := some y.block.sb }
  | clear (host : y.host = .clear) :
    Moved y .hostClear { y with block := after .clr y.block, host := phaseAfterClear y.block.strategy }

theorem moved_of_move {y y' : System} {m : Move} (h : y.move m = some y') : Moved y m y' := by
  cases m with
  | idle =>
    cases h
    exact y.offer_eq _ ▸ .idle
  | ready =>
    cases h
    exact y.offer_eq _ ▸ .ready
  | eoc v =>
    simp only [System.move] at h
    split at h <;> cases h
    exact y.offer_eq _ ▸ .eoc v _ ‹_› ‹_›
  | tc a b c =>
    simp only [System.move] at h
    split at h <;> cases h
    exact y.offer_eq _ ▸ .tc a b c ‹_› ‹_›
  | scanEnds =>
    simp only [System.move] at h
    split_ifs at h with hc
    cases h
    exact .scanEnds hc
  | hostArm =>
    simp only [System.move] at h
    split at h <;> cases h
    · exact y.offer_eq _ ▸ .bootArm _ ‹_›
    · exact y.offer_eq _ ▸ .rearm ‹_›
  | hostPoll =>
    simp only [System.move] at h
    split at h <;> cases h
    · split_ifs with hgate
      · exact .pollOpen _ ‹_› hgate
      · exact .pollShut _ ‹_› ((Bool.not_eq_true _).mp hgate)
    · split_ifs with hdone
      · exact .pollDone ‹_› hdone
      · exact .pollNotDone ‹_› ((Bool.not_eq_true _).mp hdone)
  | hostStart =>
    simp only [System.move, System.offer_eq] at h
    split_ifs at h with hhost
    split at h <;> cases h
    exact .start _ hhost ‹_›
  | hostRead =>
    simp only [System.move] at h
    split_ifs at h with hhost
    cases h
    exact .read hhost
  | hostClear =>
    simp only [System.move] at h
    split_ifs at h with hhost
    cases h
    exact y.offer_eq _ ▸ .clear hhost

theorem move_of_moved {y y' : System} {m : Move} (h : Moved y m y') : y.move m = some y' := by
  cases h with
  | idle | ready => simp [System.move, System.offer_eq]
  | eoc v c notify converter => simp [System.move, System.offer_eq, notify, converter]
  | tc a b c notify converter => simp [System.move, System.offer_eq, notify, converter]
  | scanEnds converter => simp [System.move, converter]
  | bootArm r host => simp [System.move, System.offer_eq, host]
  | rearm host => simp [System.move, System.offer_eq, host]
  | pollOpen a host gate => simp [System.move, host, State.levels, gate]
  | pollShut a host gate => simp [System.move, host, State.levels, gate]
  | pollDone host done => simp [System.move, host, State.levels, done]
  | pollNotDone host done => simp [System.move, host, State.levels, done]
  | start c host converter => simp [System.move, System.offer_eq, host, converter]
  | read host => simp [System.move, host, State.levels, State.slot, SampleBuffer.read]
  | clear host => simp [System.move, System.offer_eq, host]

/-- A move is possible exactly in its agent's case, and then does what the case says. -/
theorem move_iff_moved {y y' : System} {m : Move} : y.move m = some y' ↔ Moved y m y' :=
  ⟨moved_of_move, move_of_moved⟩

/-- The block takes the step of the operation that the move presents, and no move changes the bring-up. -/
theorem Moved.block {y y' : System} {m : Move} (h : Moved y m y') :
    y'.block = (m.operation.map (after · y.block)).getD y.block ∧ y'.notify = y.notify := by
  cases h <;> exact ⟨rfl, rfl⟩

/-- A fact about the block that every operation keeps is kept by every move. -/
theorem Moved.block_induction {P : State → Prop} {y y' : System} {m : Move} (h : Moved y m y') (hy : P y.block)
    (hkept : ∀ i, m.operation = some i → P (after i y.block)) : P y'.block := by
  rw [h.block.1]
  cases hop : m.operation with
  | none => exact hy
  | some i => exact hkept i hop

theorem Moved.strategy {y y' : System} {m : Move} (h : Moved y m y') : y'.block.strategy = y.block.strategy :=
  h.block_induction (P := fun s => s.strategy = y.block.strategy) rfl fun i _ => after_strategy i _

/-! ### The gate and the converter's report (R103) -/

theorem after_go_of_ne_ready {i : Instr} (s : State) (hi : i ≠ .ready) : (after i s).go = s.go := by
  cases hgo : s.go with
  | true => exact after_go_of_open i hgo
  | false => exact after_go_of_shut hi hgo

theorem Move.operation_eq_ready {m : Move} (h : m.operation = some .ready) : m = .ready := by
  cases m <;> simp_all [Move.operation]

theorem Moved.go_of_ne_ready {y y' : System} {m : Move} (h : Moved y m y') (hm : m ≠ .ready) :
    y'.block.go = y.block.go :=
  h.block_induction (P := fun s => s.go = y.block.go) rfl
    fun _ hi => after_go_of_ne_ready _ fun he => hm (Move.operation_eq_ready (he ▸ hi))

theorem afterReady_ne_notReady (c : Converter) : c.afterReady ≠ .notReady := by
  cases c <;> nofun

theorem afterReady_of_ne {c : Converter} (h : c ≠ .notReady) : c.afterReady = c := by
  cases c with
  | notReady => exact absurd rfl h
  | idle | scanning | copying | unmoved => rfl

/-- A trigger neither makes a converter ready nor undoes it. -/
theorem converterAfterStart_notReady {ν : Strategy} {s t : State} {c d : Converter}
    (h : converterAfterStart ν s t c = some d) : d = .notReady ↔ c = .notReady := by
  unfold converterAfterStart at h
  split_ifs at h
  · cases c <;> cases ν <;> simp only [onStartPulse, Option.some.injEq, reduceCtorEq] at h <;> subst h
    · simp
    · split_ifs <;> simp
  · cases h
    rfl

theorem Moved.notReady_iff {y y' : System} {m : Move} (h : Moved y m y') (hm : m ≠ .ready) :
    y'.converter = .notReady ↔ y.converter = .notReady := by
  cases h with
  | ready => exact absurd rfl hm
  | eoc v c _ converter => cases c <;> simp [converter, Converter.afterEvent]
  | tc a b c _ converter => simp [converter]
  | scanEnds converter => simp [converter]
  | start c _ converter => exact converterAfterStart_notReady converter
  | idle | bootArm | rearm | pollOpen | pollShut | pollDone | pollNotDone | read | clear => rfl

/-! ### The invariant, clause by clause (R104) -/

theorem System.Inv.phaseInv {y : System} (h : y.Inv) : y.PhaseInv := by
  obtain ⟨-, -, -, -, hphase⟩ := h
  exact hphase

theorem System.Inv.notify_eq {y : System} (h : y.Inv) : y.notify = y.block.strategy := by
  obtain ⟨hnotify, -⟩ := h
  exact hnotify

theorem System.Inv.go_iff {y : System} (h : y.Inv) : y.block.go = true ↔ y.converter ≠ .notReady := by
  obtain ⟨-, -, -, hgo, -⟩ := h
  exact hgo

theorem System.inFlight_iff_of_A {y : System} (hA : y.block.strategy = .A) :
    y.InFlight ↔ y.block.cs = false ∧ y.converter = .scanning y.block.ci ∧
      y.cycle = y.block.sb.toList.take y.block.ci.index := by
  unfold System.InFlight
  rw [hA]

theorem System.inFlight_iff_of_B {y : System} (hB : y.block.strategy = .B) :
    y.InFlight ↔ y.block.cs = false ∧ y.converter = .copying ∧ y.block.cyc = .converting ∧ y.cycle = [] := by
  unfold System.InFlight
  rw [hB]

theorem System.phaseInv_waitDone {y : System} (hhost : y.host = .waitDone) :
    y.PhaseInv ↔ y.block.go = true ∧ (y.InFlight ∨ y.Finished) := by
  simp only [System.PhaseInv, hhost]

/-- Where the neighbours can be in protocol: not ready yet, with the host waiting for the gate; idle; or in the flight
of a cycle, at the block's own place in it. -/
inductive Neighbours (y : System) : Prop
  | notReady (a : Bool) (converter : y.converter = .notReady) (host : y.host = .boot a false)
  | idle (converter : y.converter = .idle)
  | scanning (converter : y.converter = .scanning y.block.ci) (host : y.host = .waitDone)
      (strategy : y.block.strategy = .A) (cs : y.block.cs = false)
      (cycle : y.cycle = y.block.sb.toList.take y.block.ci.index)
  | copying (converter : y.converter = .copying) (host : y.host = .waitDone) (strategy : y.block.strategy = .B)
      (cs : y.block.cs = false) (cyc : y.block.cyc = .converting) (cycle : y.cycle = [])

theorem Neighbours.of_inFlight {y : System} (hhost : y.host = .waitDone) (h : y.InFlight) : Neighbours y := by
  cases hσ : y.block.strategy with
  | A =>
    obtain ⟨hcs, hconv, hcycle⟩ := (System.inFlight_iff_of_A hσ).mp h
    exact .scanning hconv hhost hσ hcs hcycle
  | B =>
    obtain ⟨hcs, hconv, hcyc, hcycle⟩ := (System.inFlight_iff_of_B hσ).mp h
    exact .copying hconv hhost hσ hcs hcyc hcycle

theorem System.Inv.neighbours {y : System} (h : y.Inv) : Neighbours y := by
  have hphase := h.phaseInv
  cases hhost : y.host with
  | boot a r =>
    simp only [System.PhaseInv, hhost] at hphase
    obtain ⟨-, -, -, -, hconv | hconv, hready, -⟩ := hphase
    · cases r with
      | false => exact .notReady a hconv hhost
      | true => exact absurd hconv (h.go_iff.mp (hready rfl))
    · exact .idle hconv
  | start =>
    simp only [System.PhaseInv, hhost] at hphase
    obtain ⟨-, -, -, hidle, -⟩ := hphase
    exact .idle hidle
  | waitDone =>
    obtain ⟨-, hflight | ⟨hidle, -⟩⟩ := (System.phaseInv_waitDone hhost).mp hphase
    · exact .of_inFlight hhost hflight
    · exact .idle hidle
  | consume =>
    simp only [System.PhaseInv, hhost] at hphase
    obtain ⟨-, hidle, -⟩ := hphase
    exact .idle hidle
  | clear =>
    simp only [System.PhaseInv, hhost] at hphase
    obtain ⟨-, ⟨hidle, -⟩, -⟩ := hphase
    exact .idle hidle
  | rearm =>
    simp only [System.PhaseInv, hhost] at hphase
    obtain ⟨-, -, -, -, hidle, -⟩ := hphase
    exact .idle hidle

theorem System.Inv.boot_of_notReady {y : System} (h : y.Inv) (hc : y.converter = .notReady) :
    ∃ a, y.host = .boot a false := by
  cases h.neighbours with
  | notReady a _ host => exact ⟨a, host⟩
  | idle converter | scanning converter | copying converter => cases hc.symm.trans converter

/-- A scan in flight belongs to a cycle of Strategy A and stands where the sequencer stands (R101). -/
theorem System.Inv.scanning {y : System} {c : Channel} (h : y.Inv) (hc : y.converter = .scanning c) :
    y.host = .waitDone ∧ y.block.strategy = .A ∧ y.block.cs = false ∧ y.block.ci = c ∧
      y.cycle = y.block.sb.toList.take c.index := by
  cases h.neighbours with
  | scanning converter host strategy cs cycle =>
    obtain rfl : c = y.block.ci := Converter.scanning.inj (hc.symm.trans converter)
    exact ⟨host, strategy, cs, rfl, cycle⟩
  | notReady _ converter | idle converter | copying converter => cases hc.symm.trans converter

/-- A copy in flight belongs to a cycle of Strategy B that the block converts (R102). -/
theorem System.Inv.copying {y : System} (h : y.Inv) (hc : y.converter = .copying) :
    y.host = .waitDone ∧ y.block.strategy = .B ∧ y.block.cs = false ∧ y.block.cyc = .converting ∧ y.cycle = [] := by
  cases h.neighbours with
  | copying _ host strategy cs cyc cycle => exact ⟨host, strategy, cs, cyc, cycle⟩
  | notReady _ converter | idle converter | scanning converter => cases hc.symm.trans converter

/-- In protocol no trigger finds the copy unarmed, so every conversion is moved. -/
theorem System.Inv.not_unmoved {y : System} (h : y.Inv) : y.converter ≠ .unmoved := by
  intro hc
  cases h.neighbours with
  | notReady _ converter | idle converter | scanning converter | copying converter => cases hc.symm.trans converter

/-! ### The phase's clauses are kept by each move -/

theorem State.openGate_of_open {s : State} (h : s.go = true) : s.openGate = s :=
  State.eq_of_fields rfl rfl rfl rfl h.symm rfl rfl rfl rfl rfl

/-- `READY` (R103): the first one ends the converter's start, a later one changes nothing. -/
theorem System.Inv.phaseInv_ready {y : System} (h : y.Inv) :
    ({ y with block := after .ready y.block, converter := y.converter.afterReady } : System).PhaseInv := by
  have hphase := h.phaseInv
  have hready : after .ready y.block = y.block.quiet.openGate := after_eq (exec_ready y.block)
  rw [hready]
  by_cases hconv : y.converter = .notReady
  · obtain ⟨a, hhost⟩ := h.boot_of_notReady hconv
    simp only [System.PhaseInv, hhost] at hphase ⊢
    obtain ⟨hsb, hcs, hci, hduties, -, -, hA, hB, hhistory⟩ := hphase
    exact ⟨hsb, hcs, hci, hduties, .inr (by rw [hconv]; rfl), fun _ => rfl, hA, hB, hhistory⟩
  · rw [afterReady_of_ne hconv, State.openGate_of_open (s := y.block.quiet) (h.go_iff.mpr hconv)]
    exact hphase

theorem SampleBuffer.take_write (b : SampleBuffer) (c : Channel) (v : Reading) :
    (b.write c v).toList.take (c.index + 1) = b.toList.take c.index ++ [v] := by
  cases c <;> rfl

/-- An event (R101) fills the next slot of the cycle; the third one finishes it. -/
theorem System.Inv.phaseInv_eoc {y : System} {c : Channel} (h : y.Inv) (hc : y.converter = .scanning c) (v : Reading) :
    ({ y with
      block := after (.eoc v) y.block, converter := Converter.afterEvent c,
      cycle := y.cycle ++ [v] } : System).PhaseInv := by
  obtain ⟨hhost, hA, hcs, hci, hcycle⟩ := h.scanning hc
  have hgo : y.block.go = true := h.go_iff.mpr (by simp [hc])
  have hA' : (after (.eoc v) y.block).strategy = .A := (after_strategy _ _).trans hA
  have hsb' : (after (.eoc v) y.block).sb = y.block.sb.write c v := hci ▸ after_eoc_sb v hA
  have hci' : (after (.eoc v) y.block).ci = c.succ := hci ▸ after_eoc_ci v hA
  have hcs' : (after (.eoc v) y.block).cs = decide (c = .ch2) := by rw [after_eoc_cs v hA, hcs, hci, Bool.or_false]
  have hcycle' : y.cycle ++ [v] = (y.block.sb.write c v).toList.take (c.index + 1) := by
    rw [hcycle, SampleBuffer.take_write]
  refine (System.phaseInv_waitDone (by exact hhost)).mpr ⟨after_go_of_open _ hgo, ?_⟩
  cases c with
  | ch0 | ch1 =>
    exact .inl ((System.inFlight_iff_of_A hA').mpr ⟨hcs', by rw [hci']; rfl, by rw [hcycle', hsb', hci']; rfl⟩)
  | ch2 =>
    have hfull : y.cycle ++ [v] = (after (.eoc v) y.block).sb.toList := by
      rw [hcycle', hsb']
      rfl
    exact .inr ⟨rfl, hci', hcs', fun hB => (nomatch hA'.symm.trans hB), hfull⟩

/-- The block of a copy (R102) finishes the cycle in one step. -/
theorem System.Inv.phaseInv_tc {y : System} (h : y.Inv) (hc : y.converter = .copying) (a b c : Reading) :
    ({ y with block := after (.tc a b c) y.block, converter := .idle, cycle := [a, b, c] } : System).PhaseInv := by
  obtain ⟨hhost, hB, hcs, hcyc, hcycle⟩ := h.copying hc
  have hgo : y.block.go = true := h.go_iff.mpr (by simp [hc])
  obtain ⟨-, -, ⟨-, hch0, -⟩, -⟩ := h
  rw [after_eq (exec_tc_accepted a b c ⟨hB, hcyc⟩)]
  exact (System.phaseInv_waitDone (by exact hhost)).mpr ⟨hgo, .inr ⟨rfl, hch0 hB, rfl, fun _ => rfl, rfl⟩⟩

/-- The host's place once both boot duties are done (R114). -/
theorem System.phaseInv_bootPhase {y : System} {armed ready : Bool}
    (hsb : y.block.sb = ⟨0#12, 0#12, 0#12⟩) (hcs : y.block.cs = false) (hci : y.block.ci = .ch0)
    (hconv : y.converter = .notReady ∨ y.converter = .idle) (hgate : y.block.go = true ↔ y.converter ≠ .notReady)
    (hready : ready = true → y.block.go = true) (hA : y.block.strategy = .A → armed = true)
    (hB : y.block.strategy = .B → y.block.cyc = if armed then .armed else .idle) (hcycle : y.cycle = [])
    (htaken : y.taken = none) (hhost : y.host = bootPhase armed ready) : y.PhaseInv := by
  cases hduties : armed && ready with
  | false =>
    simp only [bootPhase, hduties, Bool.false_eq_true, if_false] at hhost
    simp only [System.PhaseInv, hhost]
    exact ⟨hsb, hcs, hci, hduties, hconv, hready, hA, hB, hcycle, htaken⟩
  | true =>
    simp only [bootPhase, hduties, if_true] at hhost
    obtain ⟨rfl, rfl⟩ := (Bool.and_eq_true _ _).mp hduties
    simp only [System.PhaseInv, hhost]
    have hidle : y.converter = .idle := hconv.resolve_left (hgate.mp (hready rfl))
    exact ⟨hready rfl, hcs, hci, hidle, hB, .inl hcycle, fun _ => htaken, fun hne => absurd hcycle hne⟩

/-- `ARM` moves `CYC` and no other register that the protocol speaks of. -/
theorem System.Inv.phaseInv_bootArm {y : System} {r : Bool} (h : y.Inv) (hhost : y.host = .boot false r) :
    ({ y with block := after .arm y.block, host := bootPhase true r } : System).PhaseInv := by
  have hphase := h.phaseInv
  simp only [System.PhaseInv, hhost] at hphase
  obtain ⟨hsb, hcs, hci, -, hconv, hready, hA, -, hcycle, htaken⟩ := hphase
  have hB : y.block.strategy = .B := by
    cases hσ : y.block.strategy with
    | A => cases hA hσ
    | B => rfl
  rw [after_arm_of_B hB]
  exact System.phaseInv_bootPhase (ready := r) hsb hcs hci hconv h.go_iff hready (fun _ => rfl) (fun _ => rfl) hcycle
    htaken rfl

/-- The sampled gate (R114). -/
theorem System.Inv.phaseInv_pollOpen {y : System} {a : Bool} (h : y.Inv) (hhost : y.host = .boot a false)
    (hgo : y.block.go = true) : ({ y with host := bootPhase a true } : System).PhaseInv := by
  have hphase := h.phaseInv
  simp only [System.PhaseInv, hhost] at hphase
  obtain ⟨hsb, hcs, hci, -, hconv, -, hA, hB, hcycle, htaken⟩ := hphase
  exact System.phaseInv_bootPhase (armed := a) (ready := true) hsb hcs hci hconv h.go_iff (fun _ => hgo) hA hB hcycle
    htaken rfl

/-- The signal is up in the wait exactly when the cycle is finished. -/
theorem System.Inv.finished_of_done {y : System} (h : y.Inv) (hhost : y.host = .waitDone) (hcs : y.block.cs = true) :
    y.Finished := by
  obtain ⟨-, ⟨hlow, -⟩ | hfinished⟩ := (System.phaseInv_waitDone hhost).mp h.phaseInv
  · cases hlow.symm.trans hcs
  · exact hfinished

/-- What the host's `START` finds (R104 (a)). -/
structure ReadyToStart (y : System) : Prop where
  go : y.block.go = true
  cs : y.block.cs = false
  ci : y.block.ci = .ch0
  converter : y.converter = .idle
  armed : y.block.strategy = .B → y.block.cyc = .armed

theorem System.Inv.readyToStart {y : System} (h : y.Inv) (hhost : y.host = .start) : ReadyToStart y := by
  have hphase := h.phaseInv
  simp only [System.PhaseInv, hhost] at hphase
  obtain ⟨hgo, hcs, hci, hidle, harmed, -⟩ := hphase
  exact ⟨hgo, hcs, hci, hidle, harmed⟩

/-- The neighbours' reaction to the host's `START` in protocol. -/
def flightOf : Strategy → Converter
  | .A => .scanning .ch0
  | .B => .copying

theorem ReadyToStart.converterAfterStart {y : System} (h : ReadyToStart y) (hnotify : y.notify = y.block.strategy) :
    converterAfterStart y.notify y.block (after .start y.block) y.converter = some (flightOf y.block.strategy) := by
  have hpulse : (after .start y.block).pulses.startPulse = true := (after_startPulse _ _).trans h.go
  rw [Machine.converterAfterStart, if_pos hpulse, h.converter, hnotify]
  cases hσ : y.block.strategy with
  | A => rfl
  | B => simp [onStartPulse, h.armed hσ, flightOf]

/-- `START` (R60, R101, R102) begins a flight with nothing delivered. -/
theorem System.Inv.phaseInv_start {y : System} (h : y.Inv) (hhost : y.host = .start) :
    ({ y with
      block := after .start y.block, host := .waitDone, converter := flightOf y.block.strategy,
      cycle := [] } : System).PhaseInv := by
  have hready := h.readyToStart hhost
  refine (System.phaseInv_waitDone rfl).mpr ⟨after_go_of_open _ hready.go, .inl ?_⟩
  have hcs : (after .start y.block).cs = false := after_cs_eq_false rfl hready.cs
  cases hσ : y.block.strategy with
  | A =>
    have hci : (after .start y.block).ci = .ch0 := (after_ci _ _).trans hready.ci
    exact (System.inFlight_iff_of_A ((after_strategy _ _).trans hσ)).mpr ⟨hcs, by rw [hci]; rfl, by rw [hci]; rfl⟩
  | B =>
    have hcyc : (after .start y.block).cyc = .converting := by
      simp [after_cyc, cycleNext, hσ, hready.go, hready.armed hσ]
    exact (System.inFlight_iff_of_B ((after_strategy _ _).trans hσ)).mpr ⟨hcs, rfl, hcyc, rfl⟩

/-- `CLR` (R63) takes the signal of a finished cycle down; in Strategy B the `ARM` is still to come (R56). -/
theorem System.Inv.phaseInv_clear {y : System} (h : y.Inv) (hhost : y.host = .clear) :
    ({ y with block := after .clr y.block, host := phaseAfterClear y.block.strategy } : System).PhaseInv := by
  have hphase := h.phaseInv
  simp only [System.PhaseInv, hhost] at hphase
  obtain ⟨hgo, ⟨hidle, hci, hcs, hcomplete, hcycle⟩, htaken⟩ := hphase
  rw [after_clr]
  cases hσ : y.block.strategy with
  | A =>
    exact ⟨hgo, rfl, hci, hidle, fun hB => (nomatch hσ.symm.trans hB), .inr hcycle,
      fun hnil => (nomatch hcycle.symm.trans hnil), fun _ => htaken⟩
  | B => exact ⟨hσ, hgo, rfl, hci, hidle, hcomplete hσ, hcycle, htaken⟩

/-- `ARM` (R56) ends the host's round in Strategy B. -/
theorem System.Inv.phaseInv_rearm {y : System} (h : y.Inv) (hhost : y.host = .rearm) :
    ({ y with block := after .arm y.block, host := .start } : System).PhaseInv := by
  have hphase := h.phaseInv
  simp only [System.PhaseInv, hhost] at hphase
  obtain ⟨hB, hgo, hcs, hci, hidle, -, hcycle, htaken⟩ := hphase
  rw [after_arm_of_B hB]
  exact ⟨hgo, hcs, hci, hidle, fun _ => rfl, .inr hcycle, fun hnil => (nomatch hcycle.symm.trans hnil), fun _ => htaken⟩

/-- The phase's clauses after any move. -/
theorem Moved.phaseInv {y y' : System} {m : Move} (hm : Moved y m y') (h : y.Inv) : y'.PhaseInv := by
  have hphase := h.phaseInv
  cases hm with
  | idle => exact hphase
  | ready => exact h.phaseInv_ready
  | eoc v c _ converter => exact h.phaseInv_eoc converter v
  | tc a b c _ converter => exact h.phaseInv_tc converter a b c
  | scanEnds converter => exact absurd converter h.not_unmoved
  | bootArm r host => exact h.phaseInv_bootArm host
  | rearm host => exact h.phaseInv_rearm host
  | pollOpen a host gate => exact h.phaseInv_pollOpen host gate
  | pollShut | pollNotDone => exact hphase
  | pollDone host done =>
    obtain ⟨hgo, -⟩ := (System.phaseInv_waitDone host).mp hphase
    exact ⟨hgo, h.finished_of_done host done⟩
  | start c host converter =>
    obtain rfl : flightOf y.block.strategy = c :=
      Option.some.inj (((h.readyToStart host).converterAfterStart h.notify_eq).symm.trans converter)
    exact h.phaseInv_start host
  | read host =>
    simp only [System.PhaseInv, host] at hphase
    obtain ⟨hgo, hfinished⟩ := hphase
    exact ⟨hgo, hfinished, rfl⟩
  | clear host => exact h.phaseInv_clear host

/-- Settles O51: the block keeps its own clauses under every operation, the gate's clause needs `READY`'s case alone,
and each move keeps the phase's. -/
theorem protocolInvariantIsKept : Obligations.ProtocolInvariantIsKept := by
  intro m y y' h hmove
  have hm := moved_of_move hmove
  have hphase : y'.PhaseInv := hm.phaseInv h
  obtain ⟨hnotify, hport, hinv, hgate, -⟩ := h
  have hgate' : y'.block.go = true ↔ y'.converter ≠ .notReady := by
    by_cases hready : m = .ready
    · subst hready
      cases hm
      exact ⟨fun _ => afterReady_ne_notReady _, fun _ => (after_go _ _).trans rfl⟩
    · rw [hm.go_of_ne_ready hready, ne_eq, hm.notReady_iff hready]
      exact hgate
  exact ⟨hm.block.2.trans (hnotify.trans hm.strategy.symm),
    hm.block_induction (P := fun s => s.port = []) hport fun i _ => (after_port i _).trans hport,
    hm.block_induction hinv fun i _ => hinv.after i, hgate', hphase⟩

/-- Settles O52: nothing is in flight, and the host stands before its boot duties. -/
theorem protocolInvariantHoldsInitially : Obligations.ProtocolInvariantHoldsInitially := by
  intro σ
  refine ⟨rfl, rfl, blockInv_resetWith σ, by simp [System.initial, System.initialWith], ?_⟩
  cases σ <;> simp [System.PhaseInv, System.initial, System.initialWith]

end Sys2Proof.Machine

/-! PROOFS. Runs of the protocol: what holds in every state they reach (60_exceptions.md R104, 70_reset_and_hazards.md
R124). -/

namespace Sys2Proof.Machine

/-! ### What every move keeps, a run keeps -/

theorem System.run_cons {m : Move} {ms : List Move} {y y' : System} :
    System.run (m :: ms) y = some y' ↔ ∃ z, Moved y m z ∧ System.run ms z = some y' := by
  simp only [← move_iff_moved, System.run]
  cases y.move m <;> simp

theorem System.run_induction {P : System → Prop} {ms : List Move} {y y' : System} (hrun : System.run ms y = some y')
    (hy : P y) (hkept : ∀ m ∈ ms, ∀ z z', P z → Moved z m z' → P z') : P y' := by
  induction ms generalizing y with
  | nil =>
    cases hrun
    exact hy
  | cons m ms ih =>
    obtain ⟨z, hm, hrest⟩ := System.run_cons.mp hrun
    exact ih hrest (hkept m List.mem_cons_self y z hy hm) fun m' hm' => hkept m' (List.mem_cons_of_mem m hm')

theorem Moved.inv {y y' : System} {m : Move} (hm : Moved y m y') (h : y.Inv) : y'.Inv :=
  protocolInvariantIsKept m y y' h (move_of_moved hm)

/-- Every state that the protocol reaches has the invariant, with the strap it began with. -/
theorem inv_of_run {σ : Strategy} {ms : List Move} {y : System} (hrun : System.run ms (System.initial σ) = some y) :
    y.Inv ∧ y.block.strategy = σ :=
  System.run_induction hrun (P := fun y => y.Inv ∧ y.block.strategy = σ)
    ⟨protocolInvariantHoldsInitially σ, rfl⟩ fun _ _ _ _ ⟨h, hσ⟩ hm => ⟨hm.inv h, hm.strategy.trans hσ⟩

/-! ### Every `START` is effective (R104 (a), (f)) -/

/-- The host's `START` is never blocked. -/
theorem System.Inv.moved_start {y : System} (h : y.Inv) (hhost : y.host = .start) :
    Moved y .hostStart { y with
      block := after .start y.block, host := .waitDone, converter := flightOf y.block.strategy, cycle := [] } :=
  .start _ hhost ((h.readyToStart hhost).converterAfterStart h.notify_eq)

theorem ReadyToStart.after_start {y : System} (h : ReadyToStart y) :
    (after .start y.block).pulses.startPulse = true ∧
      (y.block.strategy = .B → (after .start y.block).cyc = .converting) := by
  refine ⟨(after_startPulse _ _).trans h.go, fun hB => ?_⟩
  rw [after_eq (exec_start_armed h.go hB (h.armed hB))]
  rfl

/-- What the host's places after the wait have in common: a finished cycle. -/
theorem System.Inv.finished_of_consume {y : System} (h : y.Inv) (hhost : y.host = .consume) : y.Finished := by
  have hphase := h.phaseInv
  simp only [System.PhaseInv, hhost] at hphase
  obtain ⟨-, hfinished⟩ := hphase
  exact hfinished

theorem System.Inv.finished_of_clear {y : System} (h : y.Inv) (hhost : y.host = .clear) :
    y.Finished ∧ y.taken = some y.block.sb := by
  have hphase := h.phaseInv
  simp only [System.PhaseInv, hhost] at hphase
  obtain ⟨-, hfinished⟩ := hphase
  exact hfinished

/-- What the host finds when it is about to arm again (R56). -/
theorem System.Inv.at_rearm {y : System} (h : y.Inv) (hhost : y.host = .rearm) :
    y.block.cs = false ∧ y.block.cyc = .complete ∧ y.cycle = y.block.sb.toList ∧ y.taken = some y.block.sb := by
  have hphase := h.phaseInv
  simp only [System.PhaseInv, hhost] at hphase
  obtain ⟨-, -, hcs, -, -, hcyc, hcycle, htaken⟩ := hphase
  exact ⟨hcs, hcyc, hcycle, htaken⟩

/-- Settles O53: the invariant gives what a `START` needs wherever the host can issue one. -/
theorem everyStartIsEffectiveAndAligned : Obligations.EveryStartIsEffectiveAndAligned := by
  intro σ ms y hrun
  obtain ⟨h, rfl⟩ := inv_of_run hrun
  refine ⟨fun hhost => ?_, fun y' hmove => ?_, fun y' hmove _ => ?_⟩
  · rw [move_of_moved (h.moved_start hhost)]
    rfl
  · cases moved_of_move hmove with
    | start c host =>
      have hready := h.readyToStart host
      obtain ⟨hpulse, hcyc⟩ := hready.after_start
      exact ⟨hpulse, fun _ => hready.ci, fun hB => ⟨hready.armed hB, hcyc hB⟩⟩
  · cases moved_of_move hmove with
    | clear host =>
      obtain ⟨⟨-, hci, -⟩, -⟩ := h.finished_of_clear host
      exact hci

/-! ### The signal (R104 (b) to (d)) -/

/-- The latch is set by the move that delivers a cycle's last datum, which finds the signal down. -/
theorem Moved.setCond_iff {y y' : System} {m : Move} {i : Instr} (hm : Moved y m y') (h : y.Inv)
    (hop : m.operation = some i) :
    (setCond i y.block = true ↔ m.lastDatum y = true) ∧ (setCond i y.block = true → y.block.cs = false) := by
  cases hm with
  | eoc v c _ converter =>
    cases hop
    obtain ⟨-, hA, hcs, hci, hcycle⟩ := h.scanning converter
    refine ⟨?_, fun _ => hcs⟩
    cases c <;> simp [setCond, Move.lastDatum, hA, hci, hcycle, SampleBuffer.toList, Channel.index]
  | tc a b c _ converter =>
    cases hop
    obtain ⟨-, hB, hcs, hcyc, -⟩ := h.copying converter
    exact ⟨by simp [setCond, Move.lastDatum, hB, hcyc], fun _ => hcs⟩
  | idle | ready | bootArm | rearm | start | clear =>
    cases hop
    exact ⟨Iff.rfl, nofun⟩
  | scanEnds | pollOpen | pollShut | pollDone | pollNotDone | read => cases hop

theorem Moved.block_of_operation {y y' : System} {m : Move} {i : Instr} (hm : Moved y m y')
    (hop : m.operation = some i) : y'.block = after i y.block := by
  rw [hm.block.1, hop]
  rfl

/-- In the wait the cycle has its three readings exactly when the signal is up. -/
theorem System.Inv.done_iff {y : System} (h : y.Inv) (hhost : y.host = .waitDone) :
    y.block.cs = true ↔ y.cycle.length = 3 := by
  obtain ⟨-, hflight | ⟨-, -, hcs, -, hcycle⟩⟩ := (System.phaseInv_waitDone hhost).mp h.phaseInv
  · cases hσ : y.block.strategy with
    | A =>
      obtain ⟨hcs, -, hcycle⟩ := (System.inFlight_iff_of_A hσ).mp hflight
      cases hci : y.block.ci <;> simp [hcs, hcycle, hci, SampleBuffer.toList, Channel.index]
    | B =>
      obtain ⟨hcs, -, -, hcycle⟩ := (System.inFlight_iff_of_B hσ).mp hflight
      simp [hcs, hcycle]
  · simp [hcs, hcycle, SampleBuffer.toList]

/-- Settles O54: `set` is the last datum's, so the edge is, and the signal is down from `CLR` to that datum. -/
theorem signalRisesOncePerCycle : Obligations.SignalRisesOncePerCycle := by
  intro σ ms y hrun
  obtain ⟨h, -⟩ := inv_of_run hrun
  refine ⟨fun m i y' hop hmove => ?_, ?_, fun hhost => h.done_iff hhost⟩
  · obtain ⟨hlast, hlow⟩ := (moved_of_move hmove).setCond_iff h hop
    have hrise : (after i y.block).pulses.doneRise = true ↔ setCond i y.block = true := by
      rw [after_doneRise, doneRiseNext, Bool.and_eq_true, Bool.not_eq_true']
      exact ⟨And.left, fun hset => ⟨hset, hlow hset⟩⟩
    rw [(moved_of_move hmove).block_of_operation hop]
    exact ⟨hrise.trans hlast, fun hr => ⟨hlow (hrise.mp hr), after_cs_of_set (hrise.mp hr)⟩, hlow⟩
  · rintro (hhost | hhost)
    · exact (h.readyToStart hhost).cs
    · obtain ⟨hcs, -⟩ := h.at_rearm hhost
      exact hcs

/-! ### The data (R104 (e)) -/

/-- Wherever the signal is up the cycle is finished. -/
theorem System.Inv.finished_of_up {y : System} (h : y.Inv) (hcs : y.block.cs = true) : y.Finished := by
  cases hhost : y.host with
  | boot a r =>
    have hphase := h.phaseInv
    simp only [System.PhaseInv, hhost] at hphase
    obtain ⟨-, hlow, -⟩ := hphase
    cases hlow.symm.trans hcs
  | start => cases (h.readyToStart hhost).cs.symm.trans hcs
  | waitDone => exact h.finished_of_done hhost hcs
  | consume => exact h.finished_of_consume hhost
  | clear =>
    obtain ⟨hfinished, -⟩ := h.finished_of_clear hhost
    exact hfinished
  | rearm =>
    obtain ⟨hlow, -⟩ := h.at_rearm hhost
    cases hlow.symm.trans hcs

/-- Only the events of a cycle in flight write the buffer. -/
theorem Moved.sb_eq_or_inFlight {y y' : System} {m : Move} (hm : Moved y m y') (h : y.Inv) :
    y'.block.sb = y.block.sb ∨ (y.host = .waitDone ∧ y.block.cs = false) := by
  cases hm with
  | eoc v c _ converter =>
    obtain ⟨hhost, -, hcs, -⟩ := h.scanning converter
    exact .inr ⟨hhost, hcs⟩
  | tc a b c _ converter =>
    obtain ⟨hhost, -, hcs, -⟩ := h.copying converter
    exact .inr ⟨hhost, hcs⟩
  | idle | ready | bootArm | rearm | start | clear => exact .inl (after_sb_of_no_hit rfl rfl)
  | scanEnds | pollOpen | pollShut | pollDone | pollNotDone | read => exact .inl rfl

/-- Settles O55: a finished cycle's data are the buffer, which nothing writes outside a flight. -/
theorem hostReadsTheCyclesData : Obligations.HostReadsTheCyclesData := by
  intro σ ms y hrun
  obtain ⟨h, -⟩ := inv_of_run hrun
  refine ⟨fun hcs => ?levels, fun m y' hwhere hmove => ?kept, ?taken⟩
  case levels =>
    obtain ⟨-, -, -, -, hcycle⟩ := h.finished_of_up hcs
    exact hcycle.symm
  case kept =>
    obtain hsb | ⟨hhost, hcs⟩ := (moved_of_move hmove).sb_eq_or_inFlight h
    · exact hsb
    · simp [hhost, hcs] at hwhere
  case taken =>
    rintro (hhost | hhost)
    · obtain ⟨⟨-, -, -, -, hcycle⟩, htaken⟩ := h.finished_of_clear hhost
      exact ⟨_, htaken, hcycle.symm, congrArg List.length hcycle⟩
    · obtain ⟨-, -, hcycle, htaken⟩ := h.at_rearm hhost
      exact ⟨_, htaken, hcycle.symm, congrArg List.length hcycle⟩

/-! ### The cycle states (R104 (g)) -/

/-- Settles O56: each of the three moves finds `CYC` where the invariant has it, and no other move presents an operation
that moves it. -/
theorem cycleStatesComeInOrder : Obligations.CycleStatesComeInOrder := by
  intro ms y y' m hrun hmove
  obtain ⟨h, hB⟩ := inv_of_run hrun
  cases moved_of_move hmove with
  | start c host =>
    have hready := h.readyToStart host
    refine ⟨fun _ => ⟨hready.armed hB, hready.after_start.2 hB⟩, nofun, nofun, fun hne => absurd rfl hne⟩
  | tc a b c _ converter =>
    obtain ⟨-, -, -, hcyc, -⟩ := h.copying converter
    refine ⟨nofun, fun _ => ⟨hcyc, ?_⟩, nofun, fun _ hne => absurd rfl (hne a b c)⟩
    exact congrArg State.cyc (after_eq (exec_tc_accepted a b c ⟨hB, hcyc⟩))
  | bootArm r host =>
    have hphase := h.phaseInv
    simp only [System.PhaseInv, host] at hphase
    obtain ⟨-, -, -, -, -, -, -, hidle, -⟩ := hphase
    refine ⟨nofun, nofun, fun _ => ⟨.inr ⟨r, host, hidle hB⟩, ?_⟩, fun _ _ hne => absurd rfl hne⟩
    exact congrArg State.cyc (after_arm_of_B hB)
  | rearm host =>
    obtain ⟨-, hcyc, -⟩ := h.at_rearm host
    refine ⟨nofun, nofun, fun _ => ⟨.inl hcyc, ?_⟩, fun _ _ hne => absurd rfl hne⟩
    exact congrArg State.cyc (after_arm_of_B hB)
  | eoc v c notify =>
    cases (notify.symm.trans h.notify_eq).trans hB
  | idle | ready | clear | scanEnds | pollOpen | pollShut | pollDone | pollNotDone | read =>
    exact ⟨nofun, nofun, nofun, fun _ _ _ => rfl⟩

/-! ### A converter that is never ready (R95) -/

/-- The gate shut, and the host in its wait for it. -/
structure WaitingForGate (y : System) : Prop where
  go : y.block.go = false
  host : ∃ a, y.host = .boot a false

theorem Moved.waitingForGate {y y' : System} {m : Move} (hm : Moved y m y') (h : WaitingForGate y)
    (hready : m ≠ .ready) : WaitingForGate y' := by
  obtain ⟨hgo, a, hhost⟩ := h
  refine ⟨(hm.go_of_ne_ready hready).trans hgo, ?_⟩
  cases hm with
  | ready => exact absurd rfl hready
  | bootArm r host =>
    cases hhost.symm.trans host
    exact ⟨true, rfl⟩
  | pollOpen _ _ gate => cases hgo.symm.trans gate
  | rearm host | pollDone host | start _ host | read host | clear host => cases hhost.symm.trans host
  | idle | eoc | tc | scanEnds | pollShut | pollNotDone => exact ⟨a, hhost⟩

theorem waitingForGate_initial (σ : Strategy) : WaitingForGate (System.initial σ) := ⟨rfl, _, rfl⟩

/-- Settles O58: without `READY` the gate stays shut, and the host's poll finds it so. -/
theorem withoutReadyTheHostWaitsForEver : Obligations.WithoutReadyTheHostWaitsForEver := by
  intro σ ms y hready hrun
  obtain ⟨hgo, hhost⟩ := System.run_induction hrun (waitingForGate_initial σ)
    fun m hm z z' hz hmoved => hmoved.waitingForGate hz fun he => hready (he ▸ hm)
  exact ⟨hgo, hhost⟩

/-! ### A notification that does not match the strap (R124) -/

/-- The wrong notification enabled, nothing stored, no signal, and the host not past its first wait. -/
structure Mismatched (y : System) : Prop where
  mismatch : y.block.strategy ≠ y.notify
  cs : y.block.cs = false
  sb : y.block.sb = ⟨0#12, 0#12, 0#12⟩
  notConsume : y.host ≠ .consume
  notClear : y.host ≠ .clear
  notRearm : y.host ≠ .rearm

/-- The events that the enabled notification presents are masked. -/
theorem Mismatched.no_hit {y y' : System} {m : Move} {i : Instr} (h : Mismatched y) (hm : Moved y m y')
    (hop : m.operation = some i) : aHit i y.block = false ∧ bHit i y.block = false := by
  cases hm with
  | eoc v c notify =>
    cases hop
    have hA : y.block.strategy ≠ .A := fun hA => h.mismatch (hA.trans notify.symm)
    exact ⟨by simp [aHit, hA], rfl⟩
  | tc a b c notify =>
    cases hop
    have hB : y.block.strategy ≠ .B := fun hB => h.mismatch (hB.trans notify.symm)
    exact ⟨rfl, by simp [bHit, hB]⟩
  | idle | ready | bootArm | rearm | start | clear =>
    cases hop
    exact ⟨rfl, rfl⟩
  | scanEnds | pollOpen | pollShut | pollDone | pollNotDone | read => cases hop

theorem bootPhase_cases (a r : Bool) : bootPhase a r = .start ∨ bootPhase a r = .boot a r := by
  rw [bootPhase]
  split_ifs
  · exact .inl rfl
  · exact .inr rfl

theorem Mismatched.moved {y y' : System} {m : Move} (h : Mismatched y) (hm : Moved y m y') : Mismatched y' := by
  have hblock : y'.block.cs = false ∧ y'.block.sb = ⟨0#12, 0#12, 0#12⟩ :=
    hm.block_induction (P := fun s => s.cs = false ∧ s.sb = ⟨0#12, 0#12, 0#12⟩) ⟨h.cs, h.sb⟩ fun i hop => by
      obtain ⟨ha, hb⟩ := h.no_hit hm hop
      obtain ⟨hcs, hsb⟩ := after_empty ha hb h.cs
      exact ⟨hcs, hsb.trans h.sb⟩
  have hmismatch : y'.block.strategy ≠ y'.notify := by
    rw [hm.strategy, hm.block.2]
    exact h.mismatch
  have hhost : y'.host ≠ .consume ∧ y'.host ≠ .clear ∧ y'.host ≠ .rearm := by
    cases hm with
    | bootArm r => obtain he | he := bootPhase_cases true r <;> simp [he]
    | pollOpen a => obtain he | he := bootPhase_cases a true <;> simp [he]
    | start => exact ⟨nofun, nofun, nofun⟩
    | rearm host => exact absurd host h.notRearm
    | pollDone _ done => cases h.cs.symm.trans done
    | read host => exact absurd host h.notConsume
    | clear host => exact absurd host h.notClear
    | idle | ready | eoc | tc | scanEnds | pollShut | pollNotDone => exact ⟨h.notConsume, h.notClear, h.notRearm⟩
  obtain ⟨hconsume, hclear, hrearm⟩ := hhost
  exact ⟨hmismatch, hblock.1, hblock.2, hconsume, hclear, hrearm⟩

/-- Settles O59: masked events store nothing and set nothing, so the poll of `done` never succeeds. -/
theorem strapMismatchNeverCompletes : Obligations.StrapMismatchNeverCompletes := by
  intro σ ν ms y hne hrun
  have hend : Mismatched y :=
    System.run_induction hrun (P := Mismatched) ⟨hne, rfl, rfl, nofun, nofun, nofun⟩ fun _ _ _ _ hz hm => hz.moved hm
  exact ⟨hend.cs, hend.sb, hend.notConsume, hend.notClear, hend.notRearm⟩

end Sys2Proof.Machine

/-! PROOFS. Progress (60_exceptions.md R106): how many moves a cycle still needs, and the moves that bring it on. -/

namespace Sys2Proof.Machine

/-! ### How far a cycle is -/

/-- A cycle of three readings is finished, and the host is about to start the next one. -/
def CycleDone (y : System) : Prop := y.host = .start ∧ y.cycle.length = 3

/-- The words that a flight still owes. -/
def Converter.wordsLeft : Converter → Nat
  | .notReady => 0
  | .idle => 0
  | .scanning c => 3 - c.index
  | .copying => 1
  | .unmoved => 0

/-- How many moves at most the host and its neighbours still have to make before a cycle is done. -/
def movesLeft (p : HostPhase) (c : Converter) : Nat :=
  match p with
  | .boot armed ready => 9 + (if c = .notReady then 1 else 0) + (!armed).toNat + (!ready).toNat
  | .start => 8
  | .waitDone => 4 + c.wordsLeft
  | .consume => 3
  | .clear => 2
  | .rearm => 1

/-- The move that is due: the word that a neighbour owes, or the host's where none is owed. -/
def Prompts (c : Converter) (m : Move) : Prop := c.PaidBy m ∨ (c.owesWord = false ∧ m.byHost = true)

/-- A cycle is done, or fewer moves are left than in `y`. -/
def Advanced (y y' : System) : Prop :=
  CycleDone y' ∨ movesLeft y'.host y'.converter < movesLeft y.host y.converter

/-- The host and its neighbours stand where they stood. -/
def SameStage (y y' : System) : Prop := y'.host = y.host ∧ y'.converter = y.converter

theorem not_prompts_idle (c : Converter) : ¬Prompts c .idle := by
  cases c <;> simp [Prompts, Converter.PaidBy, Move.byHost]

theorem prompts_ready_iff (c : Converter) : Prompts c .ready ↔ c = .notReady := by
  cases c <;> simp [Prompts, Converter.PaidBy, Move.byHost]

theorem not_prompts_hostPoll {c : Converter} (h : c.owesWord = true) : ¬Prompts c .hostPoll := by
  cases c <;> simp_all [Prompts, Converter.PaidBy, Converter.owesWord]

theorem wordsLeft_afterEvent_lt (c : Channel) : (Converter.afterEvent c).wordsLeft < (Converter.scanning c).wordsLeft := by
  cases c <;> decide

theorem movesLeft_bootArm_lt (r : Bool) (c : Converter) :
    movesLeft (bootPhase true r) c < movesLeft (.boot false r) c := by
  cases r with
  | false => simp [bootPhase, movesLeft]
  | true => exact (by omega : 8 < 9 + (if c = .notReady then 1 else 0) + 1 + 0)

theorem movesLeft_pollOpen_lt (a : Bool) (c : Converter) :
    movesLeft (bootPhase a true) c < movesLeft (.boot a false) c := by
  cases a with
  | false => simp [bootPhase, movesLeft]
  | true => exact (by omega : 8 < 9 + (if c = .notReady then 1 else 0) + 0 + 1)

/-- A wait whose signal is still down is a wait for a word that a neighbour owes. -/
theorem System.Inv.owesWord_of_low {y : System} (h : y.Inv) (hhost : y.host = .waitDone) (hcs : y.block.cs = false) :
    y.converter.owesWord = true := by
  obtain ⟨-, hflight | ⟨-, -, hup, -⟩⟩ := (System.phaseInv_waitDone hhost).mp h.phaseInv
  · cases hσ : y.block.strategy with
    | A =>
      obtain ⟨-, hconv, -⟩ := (System.inFlight_iff_of_A hσ).mp hflight
      rw [hconv]
      rfl
    | B =>
      obtain ⟨-, hconv, -⟩ := (System.inFlight_iff_of_B hσ).mp hflight
      rw [hconv]
      rfl
  · cases hcs.symm.trans hup

theorem Advanced.of_lt {y y' : System} {p p' : HostPhase} {c c' : Converter} (hp : y.host = p) (hc : y.converter = c)
    (hp' : y'.host = p') (hc' : y'.converter = c') (hlt : movesLeft p' c' < movesLeft p c) : Advanced y y' := by
  subst hp hc hp' hc'
  exact .inr hlt

/-- No move takes a cycle back: it advances, or it leaves the stage as it is and is not the move that is due. -/
theorem Moved.advanced_or_same {y y' : System} {m : Move} (hm : Moved y m y') (h : y.Inv) :
    Advanced y y' ∨ (SameStage y y' ∧ ¬Prompts y.converter m) := by
  cases hm with
  | idle => exact .inr ⟨⟨rfl, rfl⟩, not_prompts_idle _⟩
  | ready =>
    by_cases hc : y.converter = .notReady
    · obtain ⟨a, hhost⟩ := h.boot_of_notReady hc
      have hlt : movesLeft (.boot a false) .idle < movesLeft (.boot a false) .notReady := by simp [movesLeft]
      exact .inl (.of_lt hhost hc hhost (congrArg Converter.afterReady hc) hlt)
    · exact .inr ⟨⟨rfl, afterReady_of_ne hc⟩, fun hp => hc ((prompts_ready_iff _).mp hp)⟩
  | eoc v c _ converter =>
    obtain ⟨hhost, -⟩ := h.scanning converter
    exact .inl (.of_lt hhost converter hhost rfl (Nat.add_lt_add_left (wordsLeft_afterEvent_lt c) 4))
  | tc a b c _ converter =>
    obtain ⟨hhost, -⟩ := h.copying converter
    exact .inl (.of_lt hhost converter hhost rfl (by decide : 4 < 5))
  | scanEnds converter => exact absurd converter h.not_unmoved
  | bootArm r host => exact .inl (.of_lt host rfl rfl rfl (movesLeft_bootArm_lt r y.converter))
  | rearm host =>
    obtain ⟨-, -, hcycle, -⟩ := h.at_rearm host
    exact .inl (.inl ⟨rfl, congrArg List.length hcycle⟩)
  | pollOpen a host => exact .inl (.of_lt host rfl rfl rfl (movesLeft_pollOpen_lt a y.converter))
  | pollShut a host gate =>
    refine .inr ⟨⟨rfl, rfl⟩, not_prompts_hostPoll ?_⟩
    have hc : y.converter = .notReady := by
      by_contra hne
      cases gate.symm.trans (h.go_iff.mpr hne)
    rw [hc]
    rfl
  | pollDone host => exact .inl (.of_lt host rfl rfl rfl (Nat.lt_add_right y.converter.wordsLeft (by decide : 3 < 4)))
  | pollNotDone host done => exact .inr ⟨⟨rfl, rfl⟩, not_prompts_hostPoll (h.owesWord_of_low host done)⟩
  | start c host converter =>
    obtain rfl : flightOf y.block.strategy = c :=
      Option.some.inj (((h.readyToStart host).converterAfterStart h.notify_eq).symm.trans converter)
    have hlt : 4 + (flightOf y.block.strategy).wordsLeft < 8 := by cases y.block.strategy <;> decide
    exact .inl (.of_lt host rfl rfl rfl hlt)
  | read host => exact .inl (.of_lt host rfl rfl rfl (by decide : 2 < 3))
  | clear host =>
    obtain ⟨⟨-, -, -, -, hcycle⟩, -⟩ := h.finished_of_clear host
    cases hσ : y.block.strategy with
    | A => exact .inl (.inl ⟨rfl, congrArg List.length hcycle⟩)
    | B => exact .inl (.of_lt host rfl rfl rfl (by decide : 1 < 2))

theorem Moved.advanced_of_prompts {y y' : System} {m : Move} (hm : Moved y m y') (h : y.Inv)
    (hp : Prompts y.converter m) : Advanced y y' :=
  (hm.advanced_or_same h).resolve_right fun hsame => hsame.2 hp

/-! ### Every wait can end (R106) -/

/-- Where no neighbour owes a word the host has a move. -/
theorem System.Inv.host_moves {y : System} (h : y.Inv) (hidle : y.converter = .idle) :
    ∃ m y', Moved y m y' ∧ m.byHost = true := by
  have hphase := h.phaseInv
  cases hhost : y.host with
  | boot a r =>
    cases a with
    | false => exact ⟨_, _, .bootArm r hhost, rfl⟩
    | true =>
      simp only [System.PhaseInv, hhost] at hphase
      obtain ⟨-, -, -, hduties, -⟩ := hphase
      obtain rfl : r = false := hduties
      exact ⟨_, _, .pollOpen true hhost (h.go_iff.mpr (by simp [hidle])), rfl⟩
  | start => exact ⟨_, _, h.moved_start hhost, rfl⟩
  | waitDone =>
    have hcs : y.block.cs = true := by
      by_contra hlow
      have howes := h.owesWord_of_low hhost ((Bool.not_eq_true _).mp hlow)
      rw [hidle] at howes
      cases howes
    exact ⟨_, _, .pollDone hhost hcs, rfl⟩
  | consume => exact ⟨_, _, .read hhost, rfl⟩
  | clear => exact ⟨_, _, .clear hhost, rfl⟩
  | rearm => exact ⟨_, _, .rearm hhost, rfl⟩

/-- In every state of the protocol the move that is due is possible. -/
theorem System.Inv.exists_prompt {y : System} (h : y.Inv) : ∃ m y', Moved y m y' ∧ Prompts y.converter m := by
  cases h.neighbours with
  | notReady a converter => exact ⟨_, _, .ready, (prompts_ready_iff _).mpr converter⟩
  | idle converter =>
    obtain ⟨m, y', hm, hhost⟩ := h.host_moves converter
    exact ⟨m, y', hm, .inr ⟨by rw [converter]; rfl, hhost⟩⟩
  | scanning converter _ strategy =>
    refine ⟨_, _, .eoc 0#12 _ (h.notify_eq.trans strategy) converter, .inl ?_⟩
    rw [converter]
    exact ⟨0#12, rfl⟩
  | copying converter _ strategy =>
    refine ⟨_, _, .tc 0#12 0#12 0#12 (h.notify_eq.trans strategy) converter, .inl ?_⟩
    rw [converter]
    exact ⟨0#12, 0#12, 0#12, rfl⟩

/-- The due moves, one after the other, finish a cycle. -/
theorem System.Inv.exists_run_to_cycleDone {y : System} (h : y.Inv) :
    ∃ ms y', System.run ms y = some y' ∧ CycleDone y' := by
  induction hn : movesLeft y.host y.converter using Nat.strong_induction_on generalizing y with
  | h n ih =>
    obtain ⟨m, z, hm, hp⟩ := h.exists_prompt
    obtain hdone | hlt := hm.advanced_of_prompts h hp
    · exact ⟨[m], z, System.run_cons.mpr ⟨z, hm, rfl⟩, hdone⟩
    · obtain ⟨ms, y', hrun, hdone⟩ := ih _ (hn ▸ hlt) (hm.inv h) rfl
      exact ⟨m :: ms, y', System.run_cons.mpr ⟨z, hm, hrun⟩, hdone⟩

/-- Settles O57: from any state of the invariant the due moves lead to a finished cycle. -/
theorem everyWaitCanEnd : Obligations.EveryWaitCanEnd := by
  intro σ ms y hrun
  obtain ⟨h, -⟩ := inv_of_run hrun
  exact h.exists_run_to_cycleDone

/-! ### Endless runs (R106) -/

section
variable {y : Nat → System} {m : Nat → Move}

theorem EndlessRun.moved (h : EndlessRun y m) (n : Nat) : Moved (y n) (m n) (y (n + 1)) := moved_of_move (h n)

theorem EndlessRun.inv {σ : Strategy} (h : EndlessRun y m) (h0 : y 0 = System.initial σ) (n : Nat) : (y n).Inv := by
  induction n with
  | zero => exact h0 ▸ protocolInvariantHoldsInitially σ
  | succ n ih => exact (h.moved n).inv ih

/-- Between two places the cycle has advanced, or the stage is the same. -/
theorem EndlessRun.advanced_or_same (h : EndlessRun y m) (hinv : ∀ n, (y n).Inv) {n k : Nat} (hnk : n ≤ k) :
    (∃ j, n ≤ j ∧ Advanced (y n) (y j)) ∨ SameStage (y n) (y k) := by
  induction k, hnk using Nat.le_induction with
  | base => exact .inr ⟨rfl, rfl⟩
  | succ k hnk ih =>
    obtain hadv | ⟨hhost, hconv⟩ := ih
    · exact .inl hadv
    · obtain hadv | ⟨⟨hhost', hconv'⟩, -⟩ := (h.moved k).advanced_or_same (hinv k)
      · rw [Advanced, hhost, hconv] at hadv
        exact .inl ⟨k + 1, by omega, hadv⟩
      · exact .inr ⟨hhost'.trans hhost, hconv'.trans hconv⟩

/-- A move that is due at one place and made at a later one has advanced the cycle. -/
theorem EndlessRun.advanced_of_prompts (h : EndlessRun y m) (hinv : ∀ n, (y n).Inv) {n k : Nat} (hnk : n ≤ k)
    (hp : Prompts (y n).converter (m k)) : ∃ j, n ≤ j ∧ Advanced (y n) (y j) := by
  obtain hadv | ⟨hhost, hconv⟩ := h.advanced_or_same hinv hnk
  · exact hadv
  · have hstep := (h.moved k).advanced_of_prompts (hinv k) (hconv.symm ▸ hp)
    rw [Advanced, hhost, hconv] at hstep
    exact ⟨k + 1, by omega, hstep⟩

/-- If from some place on every move that is due is made, a cycle is finished after every place. -/
theorem EndlessRun.eventually_cycleDone (h : EndlessRun y m) (hinv : ∀ n, (y n).Inv) {n0 : Nat}
    (hdue : ∀ n, n0 ≤ n → ∃ k, n ≤ k ∧ Prompts (y n).converter (m k)) {n : Nat} (hn : n0 ≤ n) :
    ∃ k, n ≤ k ∧ CycleDone (y k) := by
  induction hleft : movesLeft (y n).host (y n).converter using Nat.strong_induction_on generalizing n with
  | h left ih =>
    obtain ⟨k, hnk, hp⟩ := hdue n hn
    obtain ⟨j, hnj, hdone | hlt⟩ := h.advanced_of_prompts hinv hnk hp
    · exact ⟨j, hnj, hdone⟩
    · obtain ⟨k', hjk', hdone⟩ := ih _ (hleft ▸ hlt) (hn.trans hnj) rfl
      exact ⟨k', hnj.trans hjk', hdone⟩

/-- Where no neighbour owes a word, the host's going on is the move that is due. -/
theorem HostGoesOn.prompts_of_idle (h : HostGoesOn m) {n : Nat} (hidle : (y n).converter = .idle) :
    ∃ k, n ≤ k ∧ Prompts (y n).converter (m k) := by
  obtain ⟨k, hnk, hhost⟩ := h n
  exact ⟨k, hnk, .inr ⟨by rw [hidle]; rfl, hhost⟩⟩

theorem System.Inv.idle_of_not_owes {y : System} (h : y.Inv) (hno : y.converter.owesWord = false) :
    y.converter = .idle := by
  cases hc : y.converter with
  | idle => rfl
  | unmoved => exact absurd hc h.not_unmoved
  | notReady | scanning | copying =>
    rw [hc] at hno
    cases hno

/-- R106's premises make every due move. -/
theorem NeighboursPresentWhatTheyOwe.prompts (h : NeighboursPresentWhatTheyOwe y m) (hgoes : HostGoesOn m)
    (hinv : ∀ n, (y n).Inv) (n : Nat) : ∃ k, n ≤ k ∧ Prompts (y n).converter (m k) := by
  cases howes : (y n).converter.owesWord with
  | true =>
    obtain ⟨k, hnk, hpaid⟩ := h n howes
    exact ⟨k, hnk, .inl hpaid⟩
  | false => exact hgoes.prompts_of_idle ((hinv n).idle_of_not_owes howes)

/-! ### The wait for the gate -/

/-- A wait for the gate that goes on is still a wait for the gate. -/
theorem Moved.boot_of_waiting {y y' : System} {m : Move} (hm : Moved y m y') (hhost : ∃ a, y.host = .boot a false)
    (hwait : y'.host.waiting = true) : ∃ a, y'.host = .boot a false := by
  obtain ⟨a, hhost⟩ := hhost
  cases hm with
  | bootArm r host =>
    cases hhost.symm.trans host
    exact ⟨true, rfl⟩
  | pollOpen a' => cases a' <;> cases hwait
  | rearm host | pollDone host | start _ host | read host | clear host => cases hhost.symm.trans host
  | idle | ready | eoc | tc | scanEnds | pollShut | pollNotDone => exact ⟨a, hhost⟩

/-- The gate once opened stays open. -/
theorem EndlessRun.go_of_ready (h : EndlessRun y m) {k : Nat} (hready : m k = .ready) {n : Nat} (hkn : k < n) :
    (y n).block.go = true := by
  induction n, hkn using Nat.le_induction with
  | base =>
    have hm := h.moved k
    rw [hready] at hm
    rw [hm.block_of_operation rfl, after_go]
    rfl
  | succ n _ ih => exact (h.moved n).block_induction (P := fun s => s.go = true) ih fun i _ => after_go_of_open i ih

theorem System.Inv.idle_of_boot {y : System} (h : y.Inv) (hhost : ∃ a, y.host = .boot a false)
    (hgo : y.block.go = true) : y.converter = .idle := by
  obtain ⟨a, hhost⟩ := hhost
  cases h.neighbours with
  | notReady _ converter => exact absurd converter (h.go_iff.mp hgo)
  | idle converter => exact converter
  | scanning _ host | copying _ host => cases hhost.symm.trans host

/-- A `READY`, whenever it comes, ends the wait for the gate. -/
theorem EndlessRun.gate_wait_ends (h : EndlessRun y m) (hinv : ∀ n, (y n).Inv) (hgoes : HostGoesOn m) {n a k}
    (hhost : (y n).host = .boot a false) (hready : m k = .ready) : ∃ k, n ≤ k ∧ (y k).host.waiting = false := by
  by_contra hnever
  have hwait : ∀ j, n ≤ j → (y j).host.waiting = true := fun j hj =>
    (Bool.not_eq_false _).mp fun hend => hnever ⟨j, hj, hend⟩
  have hboot : ∀ j, n ≤ j → ∃ a, (y j).host = .boot a false := fun j hj => by
    induction j, hj using Nat.le_induction with
    | base => exact ⟨a, hhost⟩
    | succ j hj ih => exact (h.moved j).boot_of_waiting ih (hwait (j + 1) (by omega))
  obtain ⟨j, hj, hstart, -⟩ := h.eventually_cycleDone hinv (n0 := max n (k + 1))
    (fun j hj => hgoes.prompts_of_idle ((hinv j).idle_of_boot (hboot j (by omega)) (h.go_of_ready hready (by omega))))
    le_rfl
  obtain ⟨a', hboot⟩ := hboot j (by omega)
  cases hstart.symm.trans hboot

/-- The wait for the gate ends by a `READY` only. -/
theorem EndlessRun.exists_ready {σ : Strategy} (h : EndlessRun y m) (h0 : y 0 = System.initial σ) {k : Nat}
    (hend : (y k).host.waiting = false) : ∃ k, m k = .ready := by
  by_contra hnever
  have hshut : ∀ n, WaitingForGate (y n) := fun n => by
    induction n with
    | zero => exact h0 ▸ waitingForGate_initial σ
    | succ n ih => exact (h.moved n).waitingForGate ih fun he => hnever ⟨n, he⟩
  obtain ⟨-, a, hhost⟩ := hshut k
  rw [hhost] at hend
  cases hend

/-! ### The wait for `done` -/

/-- A wait for `done` ends in the host's reading, and only after the flight. -/
theorem Moved.waitDone_or_consume {y y' : System} {m : Move} (hm : Moved y m y') (hhost : y.host = .waitDone) :
    y'.host = .consume ∨ (y'.host = .waitDone ∧ (y.converter = .idle → y'.converter = .idle)) := by
  cases hm with
  | pollDone => exact .inl rfl
  | ready => exact .inr ⟨hhost, fun hidle => congrArg Converter.afterReady hidle⟩
  | eoc _ _ _ converter => exact .inr ⟨hhost, fun hidle => (nomatch hidle.symm.trans converter)⟩
  | tc | scanEnds => exact .inr ⟨hhost, fun _ => rfl⟩
  | bootArm _ host | rearm host | pollOpen _ host | start _ host | read host | clear host => cases hhost.symm.trans host
  | idle | pollShut | pollNotDone => exact .inr ⟨hhost, id⟩

/-- The signal, whenever it is up, ends the wait for `done`. -/
theorem EndlessRun.done_wait_ends (h : EndlessRun y m) (hinv : ∀ n, (y n).Inv) (hgoes : HostGoesOn m) {n k : Nat}
    (hhost : (y n).host = .waitDone) (hnk : n ≤ k) (hup : (y k).block.cs = true) :
    ∃ k, n ≤ k ∧ (y k).host = .consume := by
  by_contra hnever
  have hwait : ∀ j, n ≤ j → (y j).host = .waitDone := fun j hj => by
    induction j, hj using Nat.le_induction with
    | base => exact hhost
    | succ j hj ih =>
      obtain hend | ⟨hstays, -⟩ := (h.moved j).waitDone_or_consume ih
      · exact absurd ⟨j + 1, by omega, hend⟩ hnever
      · exact hstays
  have hidle : ∀ j, k ≤ j → (y j).converter = .idle := fun j hj => by
    induction j, hj using Nat.le_induction with
    | base =>
      obtain ⟨hidle, -⟩ := (hinv k).finished_of_up hup
      exact hidle
    | succ j hj ih =>
      obtain hend | ⟨-, hkept⟩ := (h.moved j).waitDone_or_consume (hwait j (by omega))
      · exact absurd ⟨j + 1, by omega, hend⟩ hnever
      · exact hkept ih
  obtain ⟨j, hj, hstart, -⟩ := h.eventually_cycleDone hinv (fun j hj => hgoes.prompts_of_idle (hidle j hj)) le_rfl
  cases hstart.symm.trans (hwait j (by omega))

end

/-- Settles O60: each wait's end is traced to its cause, and where every due move is made the moves left run out. -/
theorem everyWaitEndsUnderProgress : Obligations.EveryWaitEndsUnderProgress := by
  intro σ y m h0 h hgoes
  have hinv := h.inv h0
  refine ⟨fun n a hhost => ⟨fun ⟨k, _, hend⟩ => h.exists_ready h0 hend, fun ⟨k, hready⟩ => ?gate⟩,
    fun n hhost => ⟨fun ⟨k, hnk, hend⟩ => ?up, fun ⟨k, hnk, hup⟩ => ?done⟩, fun howed => ?progress⟩
  case gate => exact h.gate_wait_ends hinv hgoes hhost hready
  case up =>
    obtain ⟨-, -, hcs, -⟩ := (hinv k).finished_of_consume hend
    exact ⟨k, hnk, hcs⟩
  case done => exact h.done_wait_ends hinv hgoes hhost hnk hup
  case progress =>
    have hdone : ∀ n, ∃ k, n ≤ k ∧ CycleDone (y k) := fun n =>
      h.eventually_cycleDone hinv (n0 := 0) (fun n _ => howed.prompts hgoes hinv n) n.zero_le
    refine ⟨fun n _ => ?_, hdone⟩
    obtain ⟨k, hnk, hstart, -⟩ := hdone n
    exact ⟨k, hnk, by rw [hstart]; rfl⟩

end Sys2Proof.Machine
